-- ==== Sys2Proof/Word.lean ====
section
/-! DEFINITION. The value types of `spec/00_scope.md`: bytes, words, rotation amounts and byte strings, and
the word arithmetic of rule R10. -/

namespace Sys2Proof

/-- A byte: 8 bits (R8). -/
abbrev Byte := BitVec 8

/-- A word: 32 bits, unsigned (R8). -/
abbrev Word := BitVec 32

/-- A 16-bit field of a frame (R33). -/
abbrev Half := BitVec 16

/-- A rotation amount: 5 bits, 0..31 (R20). -/
abbrev Rotation := BitVec 5

/-- A byte string (R14); a request or response frame is one (R40, R50). -/
abbrev Frame := List Byte

/-- Addition modulo 2^32 (R10). -/
def add32 (a b : Word) : Word := a + b

/-- Subtraction modulo 2^32 (R10). -/
def sub32 (a b : Word) : Word := a - b

end Sys2Proof
end

