-- ==== Sys2Proof/Config.lean ====
section
/-! DEFINITION. The implementation parameters of `spec/00_scope.md` section 4, and the values the spec leaves
free. Each parameter without a value, and each free value, is a constant with no body: nothing can be proved of
what it is. -/

namespace Sys2Proof

/-- Eight tables of 256 32-bit entries (R3). -/
abbrev Tables := Vector (Vector Word 256) 8

/-- One 32-byte key of the password field cipher (R4). -/
abbrev FieldKey := Vector Byte 32

/-- What `INIT` does on an instance that is already initialised (R6, R60). -/
inductive Reinit
  | reject
  | rederive
deriving DecidableEq, Repr, Inhabited

/-- The parts the source gives only in shape; the spec defines one value (R7). -/
inductive Family
  | cast128
deriving DecidableEq, Repr

/-- The parameters of one block (R3 to R7). They are configuration: no step changes them (R109). -/
structure Params where
  /-- `SBOX`: absent, or the eight tables (R3). -/
  sbox : Option Tables
  /-- `PWKEY_A`, the key indexed by `i * 44 mod 32` (R4). -/
  pwkeyA : FieldKey
  /-- `PWKEY_B`, the key indexed by `i * 99 mod 32` (R4). -/
  pwkeyB : FieldKey
  /-- How many engines there are besides the first: `NINST` is at least 1 (R5). -/
  others : Nat
  /-- `REINIT` (R6). -/
  reinit : Reinit
  /-- `SER_CAP`, with the spec's default (R6). -/
  serCap : Nat := 65535
  /-- `FAMILY` (R7). -/
  family : Family := .cast128
deriving DecidableEq, Repr

/-- `NINST`, the number of engines (R5). -/
def Params.ninst (p : Params) : Nat := p.others + 1

/-- `TBL_OK` (R3). -/
def Params.tblOk (p : Params) : Bool := p.sbox.isSome

/-- `SBOX` of the block that leaves `State.reset`: not in the spec (R3; log 2). -/
opaque Config.sbox : Option Tables

/-- `PWKEY_A` of that block: not in the spec (R4; log 2). -/
opaque Config.pwkeyA : FieldKey

/-- `PWKEY_B` of that block: not in the spec (R4; log 2). -/
opaque Config.pwkeyB : FieldKey

/-- `NINST - 1` of that block: not in the spec (R5; log 2). -/
opaque Config.otherInstances : Nat

/-- `REINIT` of that block: `OPEN` in the spec (R6; log 2). -/
opaque Config.reinit : Reinit

/-- Free value: `KM[1..16]` of engine `k` after the `n`-th reset of a run (R15, R19; U3, U12; log 5). -/
opaque Config.kmAfterReset : (n k : Nat) → Vector Word 16

/-- Free value: `KR[1..16]` of engine `k` after the `n`-th reset of a run (R15, R20; U3, U12; log 5). -/
opaque Config.krAfterReset : (n k : Nat) → Vector Rotation 16

/-- Free value: what a table read gives while the tables are absent, where R29 defines nothing (log 6). -/
opaque Config.absentEntry : Fin 8 → Byte → Word

/-- The parameters of the block that leaves `State.reset` (logs 2, 3, 12). -/
def Config.params : Params where
  sbox := Config.sbox
  pwkeyA := Config.pwkeyA
  pwkeyB := Config.pwkeyB
  others := Config.otherInstances
  reinit := Config.reinit

end Sys2Proof
end

