-- ==== Sys2Proof/Syntax.lean ====
section
/-! DEFINITION. The six commands of `spec/opcode_table.json`, with the operands of `spec/30_encoding.md`. -/

namespace Sys2Proof

/-- One command. The counted lengths `klen`, `blen` and `alen` are the lengths of the byte strings (R52). -/
inductive Instr
  /-- `INIT fe, key` (R42, R56). -/
  | init (fe : Bool) (key : List Byte)
  /-- `ENC data` (R43, R76). -/
  | enc (data : List Byte)
  /-- `DEC data` (R43, R77). -/
  | dec (data : List Byte)
  /-- `PWDEC dlen, buf` (R44, R83). -/
  | pwdec (dlen : Byte) (buf : List Byte)
  /-- `SERDEC dlen, buf` (R45, R86). -/
  | serdec (dlen : Half) (buf : List Byte)
  /-- `STAT` (R46, R90). -/
  | stat
deriving DecidableEq, Repr

end Sys2Proof
end

