-- ==== Sys2Proof/Machine/State.lean ====
section
/-! DEFINITION. The state of the block (`spec/10_state.md`), the host's actions and the response frames
(`spec/70_reset_and_hazards.md` R116, R117), the reasons a step can stop, and the state after reset (R108). -/

namespace Sys2Proof.Machine

/-- The architectural state of one engine: exactly the table of R15. -/
structure Engine where
  /-- `INITED` (R16). -/
  inited : Bool
  /-- `FENC` (R17). -/
  fenc : Bool
  /-- `R16`: false selects 12 rounds, true 16 (R18). -/
  r16 : Bool
  /-- `KM[1..16]`: entry `r` holds the masking value of round `r + 1` (R19). -/
  km : Vector Word 16
  /-- `KR[1..16]`: entry `r` holds the rotation amount of round `r + 1` (R20). -/
  kr : Vector Rotation 16
deriving DecidableEq, Repr

/-- One engine right after reset (R15, R108). The spec leaves `KM` and `KR` unspecified: zero is the model's
choice (DESIGN CHOICE, log 4). -/
def Engine.reset : Engine where
  inited := false
  fenc := false
  r16 := false
  km := Vector.replicate 16 0
  kr := Vector.replicate 16 0

/-- What the host may do to the block (R116). -/
inductive HostAction
  /-- Present a frame on a port and read its response (R40, R114). -/
  | present (port : Nat) (frame : Frame)
  /-- Assert reset while the listed commands, each a port and its frame, are in progress (R108). -/
  | assertReset (inProgress : List (Nat × Frame))
  /-- Release reset (R108). -/
  | releaseReset
deriving DecidableEq, Repr

/-- One response frame, with the port that sent it (R50). -/
structure Response where
  port : Nat
  frame : Frame
deriving DecidableEq, Repr

/-- The state of the block, its parameters, and its interface with the host. -/
structure State where
  /-- The parameters: configuration that no step changes (R109; log 1). -/
  cfg : Params
  /-- The engines, engine `k` behind port `k` (R106). -/
  engines : List Engine
  /-- The port whose frame is executing: the model's own (log 11). -/
  port : Nat
  /-- The reset input is asserted (R108). -/
  inReset : Bool
  /-- How many resets have ended: the model's own, read only to draw free values (log 5). -/
  resets : Nat
  /-- The host's coming actions, oldest first (R117; log 7). -/
  inputs : List HostAction
  /-- The responses sent, oldest first (R117). -/
  outputs : List Response
deriving DecidableEq, Repr

/-- Why the block stops. Every failure the spec names is a reject, which is a next state (R92). -/
inductive Fault
  /-- Raised by `onPort` when the list of host actions names a port the block does not have (R106; log 10). Safe:
  no block has such a port, so no behaviour of a block is left out. -/
  | noSuchPort
deriving DecidableEq, Repr

/-- Why an instruction has no meaning. -/
inductive Refusal
  /-- For an instruction whose arm of `exec` gives it no meaning yet; no arm raises it. Safe. -/
  | notModelled (mnemonic : String)
deriving DecidableEq, Repr

/-- The block right after reset: every engine in its reset state (R108), the reset input released, no host action
pending and no response sent; the parameters are those of the block at hand (R109; logs 2, 3). -/
def State.reset : State where
  cfg := Config.params
  engines := List.replicate Config.params.ninst Engine.reset
  port := 0
  inReset := false
  resets := 0
  inputs := []
  outputs := []

end Sys2Proof.Machine
end

