-- ==== Sys2Proof/Machine/Flags.lean ====
section
/-! DEFINITION. The flags: what `INIT` writes into `R16` (R58), the round count it stands for (R18), and the status
byte (R22, R90). Arithmetic writes no flag (R10, R23). -/

namespace Sys2Proof.Machine

/-- `R16` after an `INIT` with a key of `klen` bytes: 12 rounds under 11 bytes, else 16 (R58). -/
def roundFlag (klen : Nat) : Bool := decide (11 ≤ klen)

/-- `ROUNDS` (R18). -/
def rounds (r16 : Bool) : Nat := if r16 then 16 else 12

/-- The status byte `ST`: `TBL_OK + 2 * INITED + 4 * FENC + 8 * R16`, bits 7:4 zero (R22, R90). -/
def statusByte (tblOk : Bool) (e : Engine) : Byte :=
  BitVec.ofNat 8 (tblOk.toNat + 2 * e.inited.toNat + 4 * e.fenc.toNat + 8 * e.r16.toNat)

end Sys2Proof.Machine
end

