-- ==== Sys2Proof/WellFormed.lean ====
section
/-! DEFINITION. Which instructions a frame can carry: a counted byte string is no longer than its length field
can say. Lengths the command itself rejects (an empty key, a 7-byte block) are well-formed (R42, R43). -/

namespace Sys2Proof

/-- The longest byte string a 1-byte length field can count (R42, R43, R44). -/
def maxCount8 : Nat := 255

/-- The longest byte string a 2-byte length field can count (R45). -/
def maxCount16 : Nat := 65535

/-- Every counted operand fits its length field (R42 to R46). -/
def Instr.wf : Instr → Bool
  | .init _ key => key.length ≤ maxCount8
  | .enc data => data.length ≤ maxCount8
  | .dec data => data.length ≤ maxCount8
  | .pwdec _ buf => buf.length ≤ maxCount8
  | .serdec _ buf => buf.length ≤ maxCount16
  | .stat => true

end Sys2Proof
end

