-- ==== Sys2Proof/Decode.lean ====
section
/-! DEFINITION. The frame decoder of `spec/30_encoding.md`, total on every byte string (R40), the encoder, and
the reading of an opcode-table word as a frame. -/

namespace Sys2Proof

/-- `le16`: the first byte is the least significant (R12, R33). -/
def le16 (b0 b1 : Byte) : Half := b1 ++ b0

/-- The two bytes of a 16-bit field, least significant first (R33). -/
def bytesOf16 (h : Half) : List Byte := [h.setWidth 8, (h >>> 8).setWidth 8]

/-- A length as a 1-byte field. -/
def count8 (n : Nat) : Byte := BitVec.ofNat 8 n

/-- A length as a 2-byte field. -/
def count16 (n : Nat) : Half := BitVec.ofNat 16 n

/-- Why the decoder rejects a frame (R48, R49). -/
inductive FrameError
  /-- The frame holds no byte at all (R49). -/
  | emptyFrame
  /-- Byte 0 is `0x00` or in `0x07`..`0xFF` (R48). -/
  | illegalOpcode
  /-- The frame is shorter than the fixed header of its format (R49). -/
  | shortHeader
  /-- The total length is not the header length plus the counted field (R49). -/
  | lengthMismatch
  /-- Format `K` with `fe` neither `0x00` nor `0x01` (R42, R49). -/
  | badDirection
deriving DecidableEq, Repr

/-- What the decoder answers for a frame: a command, or a rejection by name. -/
inductive Decoded
  | command (i : Instr)
  | rejected (e : FrameError)
deriving DecidableEq, Repr

/-- The opcode of each command (R47). -/
def opInit : Byte := 0x01
/-- R47. -/
def opEnc : Byte := 0x02
/-- R47. -/
def opDec : Byte := 0x03
/-- R47. -/
def opPwdec : Byte := 0x04
/-- R47. -/
def opSerdec : Byte := 0x05
/-- R47. -/
def opStat : Byte := 0x06

/-- `i` when the bytes that follow the header are as many as the length field says (R49). -/
def counted (n : Nat) (body : List Byte) (i : Instr) : Decoded :=
  if body.length = n then .command i else .rejected .lengthMismatch

/-- The `fe` byte as the operand: `0x00` is false, `0x01` is true, nothing else is legal (R42). -/
def directionOf (fe : Byte) : Option Bool :=
  if fe = 0 then some false else if fe = 1 then some true else none

/-- Format `K`, after the opcode (R42). -/
def decodeK : List Byte → Decoded
  | fe :: klen :: key =>
    match directionOf fe with
    | some b => counted klen.toNat key (.init b key)
    | none => .rejected .badDirection
  | _ => .rejected .shortHeader

/-- Format `B`, after the opcode (R43). -/
def decodeB (mk : List Byte → Instr) : List Byte → Decoded
  | blen :: data => counted blen.toNat data (mk data)
  | _ => .rejected .shortHeader

/-- Format `P`, after the opcode (R44). -/
def decodeP : List Byte → Decoded
  | dlen :: alen :: buf => counted alen.toNat buf (.pwdec dlen buf)
  | _ => .rejected .shortHeader

/-- Format `S`, after the opcode (R45). -/
def decodeS : List Byte → Decoded
  | d0 :: d1 :: a0 :: a1 :: buf => counted (le16 a0 a1).toNat buf (.serdec (le16 d0 d1) buf)
  | _ => .rejected .shortHeader

/-- Format `N`, after the opcode (R46). -/
def decodeN (rest : List Byte) : Decoded := counted 0 rest .stat

/-- The decoder: the opcode is the whole of byte 0 and selects the format (R41, R47). -/
def decode : Frame → Decoded
  | [] => .rejected .emptyFrame
  | op :: rest =>
    if op = opInit then decodeK rest
    else if op = opEnc then decodeB .enc rest
    else if op = opDec then decodeB .dec rest
    else if op = opPwdec then decodeP rest
    else if op = opSerdec then decodeS rest
    else if op = opStat then decodeN rest
    else .rejected .illegalOpcode

/-- The command a decoder's answer holds, if it holds one. -/
def Decoded.toOption : Decoded → Option Instr
  | .command i => some i
  | .rejected _ => none

/-- The request frame of a command (R42 to R46). -/
def encode : Instr → Frame
  | .init fe key => opInit :: (if fe then 1 else 0) :: count8 key.length :: key
  | .enc data => opEnc :: count8 data.length :: data
  | .dec data => opDec :: count8 data.length :: data
  | .pwdec dlen buf => opPwdec :: dlen :: count8 buf.length :: buf
  | .serdec dlen buf => opSerdec :: (bytesOf16 dlen ++ bytesOf16 (count16 buf.length) ++ buf)
  | .stat => [opStat]

/-- Byte `i` of a number whose byte 0 is its least significant, as `spec/opcode_table.json` numbers bits. -/
def wordByte (w i : Nat) : Byte := BitVec.ofNat 8 (w / 256 ^ i)

/-- How many bytes the frame that begins with the bytes of `w` has by its own header (R41 to R46); 0 where byte 0
is no opcode. -/
def headerLength (w : Nat) : Nat :=
  let op := wordByte w 0
  if op = opInit then 3 + (wordByte w 2).toNat
  else if op = opEnc then 2 + (wordByte w 1).toNat
  else if op = opDec then 2 + (wordByte w 1).toNat
  else if op = opPwdec then 3 + (wordByte w 2).toNat
  else if op = opSerdec then 5 + (le16 (wordByte w 3) (wordByte w 4)).toNat
  else if op = opStat then 1
  else 0

/-- The frame whose first `nbits` bits are `w`: as long as its header says, and at least `nbits` long; every bit
above `nbits` is 0 (log 13). -/
def tableFrame (nbits w : Nat) : Frame :=
  let v := w % 2 ^ nbits
  (List.range (max ((nbits + 7) / 8) (headerLength v))).map (wordByte v)

/-- The command the decoder reads from an opcode-table word. -/
def decodeTableWord (nbits w : Nat) : Option Instr := (decode (tableFrame nbits w)).toOption

end Sys2Proof
end

