-- ==== Sys2Proof/Machine/Operands.lean ====
section
/-! DEFINITION. How operands become words and how words become bytes: the notation of `spec/00_scope.md` section
5, the byte orders of `spec/20_memory.md` section 2, and the index mappings of the field ciphers. -/

namespace Sys2Proof.Machine

/-- Bits 31:24 (R9). -/
def byte0 (w : Word) : Byte := w.extractLsb' 24 8

/-- Bits 23:16 (R9). -/
def byte1 (w : Word) : Byte := w.extractLsb' 16 8

/-- Bits 15:8 (R9). -/
def byte2 (w : Word) : Byte := w.extractLsb' 8 8

/-- Bits 7:0 (R9). -/
def byte3 (w : Word) : Byte := w.extractLsb' 0 8

/-- A word from four bytes, first byte most significant (R12). -/
def be32 (b0 b1 b2 b3 : Byte) : Word := b0 ++ b1 ++ b2 ++ b3

/-- The four bytes of a word, most significant first (R12). -/
def bytesOf32 (w : Word) : List Byte := [byte0 w, byte1 w, byte2 w, byte3 w]

/-- 32-bit left rotation by 0..31; by 0 it is the identity (R11). -/
def rol32 (v : Word) (n : Rotation) : Word := v.rotateLeft n.toNat

/-- `strip(s, v)`: every element equal to `v` removed, the order of the others kept (R14). -/
def strip (s : List Byte) (v : Byte) : List Byte := s.filter (· ≠ v)

/-- An array of 16 bytes: the padded key, and the working arrays `x` and `z` (R61, R62). -/
abbrev Array16 := Vector Byte 16

/-- The padded key: the key bytes first, zeros after (R61). -/
def padKey (key : List Byte) : Array16 := Vector.ofFn fun i => key.getD i.val 0

/-- `word(a, i)`: four consecutive bytes, first most significant (R32); `i` is 0, 4, 8 or 12, said as 0..3. -/
def wordAt (a : Array16) (i : Fin 4) : Word :=
  be32 (a[4 * i.val]'(by omega)) (a[4 * i.val + 1]'(by omega)) (a[4 * i.val + 2]'(by omega))
    (a[4 * i.val + 3]'(by omega))

/-- `a[i..i+3] <- w`: the four bytes of a word stored at `i` = 0, 4, 8 or 12, said as 0..3 (R32). -/
def putWord (a : Array16) (i : Fin 4) (w : Word) : Array16 :=
  (((a.set (4 * i.val) (byte0 w) (by omega)).set (4 * i.val + 1) (byte1 w) (by omega)).set
    (4 * i.val + 2) (byte2 w) (by omega)).set (4 * i.val + 3) (byte3 w) (by omega)

/-- The halves of a block of exactly 8 bytes, left and right (R31); no other byte string has halves (R76). -/
def splitBlock : List Byte → Option (Word × Word)
  | [d0, d1, d2, d3, d4, d5, d6, d7] => some (be32 d0 d1 d2 d3, be32 d4 d5 d6 d7)
  | _ => none

/-- A pair of halves as the bytes of a block (R31). -/
def joinBlock (p : Word × Word) : List Byte := bytesOf32 p.1 ++ bytesOf32 p.2

/-- `(i * 44) mod 32`, the position in `PWKEY_A` (R84). -/
def indexA (i : Nat) : Fin 32 := ⟨i * 44 % 32, Nat.mod_lt _ (by decide)⟩

/-- `(i * 99) mod 32`, the position in `PWKEY_B` (R84). -/
def indexB (i : Nat) : Fin 32 := ⟨i * 99 % 32, Nat.mod_lt _ (by decide)⟩

/-- How many bytes a field cipher processes: `min(declared, actual, cap)` (R88). -/
def processed (dlen alen cap : Nat) : Nat := min dlen (min alen cap)

/-- The cap of the password cipher (R88). -/
def passwordCap : Nat := 32

/-- The null byte that `PWDEC` strips (R89). -/
def nullByte : Byte := 0x00

/-- The space that `SERDEC` strips (R89). -/
def spaceByte : Byte := 0x20

/-- The offset of the serial cipher (R86). -/
def serialOffset : Byte := 156

end Sys2Proof.Machine
end

