-- ==== Sys2Proof/Machine/Ops.lean ====
section
/-! DEFINITION. The operations the commands share: the table and key reads (R28, R29), rejecting and responding
(R13, R102), sending the response frame (R50), running one command on the executing port (R37), and the reset input
(R108). -/

namespace Sys2Proof.Machine

/-- The eight outcomes of a command (R93). -/
inductive Status
  | ok
  | eIllegal
  | eFrame
  | eNoTables
  | eKeyLen
  | eNotInit
  | eBlockLen
  | eReinit
deriving DecidableEq, Repr

/-- The status code, byte 0 of a response frame (R93). -/
def statusCode : Status → Byte
  | .ok => 0x00
  | .eIllegal => 0x01
  | .eFrame => 0x02
  | .eNoTables => 0x03
  | .eKeyLen => 0x04
  | .eNotInit => 0x05
  | .eBlockLen => 0x06
  | .eReinit => 0x07

/-- The status a frame-level rejection answers (R94, R95). -/
def frameStatus : FrameError → Status
  | .illegalOpcode => .eIllegal
  | .emptyFrame => .eFrame
  | .shortHeader => .eFrame
  | .lengthMismatch => .eFrame
  | .badDirection => .eFrame

/-- What a command answers (R50). -/
structure Reply where
  status : Status
  payload : List Byte
deriving DecidableEq, Repr

/-- The response frame: `status`, `rlen` least significant byte first, payload (R50). -/
def responseFrame (r : Reply) : Frame :=
  statusCode r.status :: (bytesOf16 (count16 r.payload.length) ++ r.payload)

/-- A command, as what it makes of the configuration and of its engine: the engine after it, and its reply. Nothing
else goes in and nothing else comes out (R25). -/
abbrev Command := Params → Engine → Engine × Reply

/-- `reject E_X`: the engine as before, the status, no payload (R13, R102). The block's one way to fail: nothing is
saved, no mode changes, control goes nowhere. -/
def reject (e : Engine) (st : Status) : Engine × Reply := (e, ⟨st, []⟩)

/-- `respond(p)`: status `OK` and payload `p` (R13). -/
def respond (e : Engine) (p : List Byte) : Engine × Reply := (e, ⟨.ok, p⟩)

/-- The engine of the executing port is left as `a.1`, and the port sends the response frame of `a.2` (R37, R50). -/
def State.answer (s : State) (a : Engine × Reply) : State :=
  { s with engines := s.engines.set s.port a.1, outputs := s.outputs ++ [⟨s.port, responseFrame a.2⟩] }

/-- The state while the frame on port `k` executes (R106; log 11). -/
def State.select (s : State) (k : Nat) : State := { s with port := k }

/-- The state with the host actions `rest` still to come (R117). -/
def State.expect (s : State) (rest : List HostAction) : State := { s with inputs := rest }

/-- Run a command on the engine of the executing port, atomically, to its response (R35, R37). -/
def onPort (c : Command) (s : State) : Host.Outcome State Fault Refusal :=
  match s.engines[s.port]? with
  | some e => .next (s.answer (c s.cfg e))
  | none => .fault .noSuchPort

/-- `S[t][b]`, the table read (R29). While the tables are absent it is not defined and gives a free value (log 6). -/
def tableRead (sbox : Option Tables) (t : Fin 8) (b : Byte) : Word :=
  match sbox with
  | some S => S[t.val][b.toNat]'b.isLt
  | none => Config.absentEntry t b

/-- The engines after a reset: the flags of R15, and `KM`, `KR` unspecified, that is free (log 5); `k` is the number of
the first engine of the list. -/
def resetEngines (n : Nat) : Nat → List Engine → List Engine
  | _, [] => []
  | k, _ :: es =>
    { inited := false, fenc := false, r16 := false
      km := Config.kmAfterReset n k, kr := Config.krAfterReset n k } :: resetEngines n (k + 1) es

/-- Assert reset: from now on no frame is accepted; the commands in progress are abandoned and give no response
(R108). Their list is not looked at: an abandoned command leaves nothing that can be observed (log 16). -/
def State.assertReset (s : State) : State := { s with inReset := true }

/-- Release reset: every engine is in its reset state (R108). Where reset is not asserted nothing is released (log
14). -/
def State.releaseReset (s : State) : State :=
  if s.inReset then
    { s with inReset := false, resets := s.resets + 1, engines := resetEngines s.resets 0 s.engines }
  else s

end Sys2Proof.Machine
end

