-- ==== Sys2Proof/Machine/Block.lean ====
section
/-! DEFINITION. The round functions, the Feistel transform, and the meanings of `ENC` and `DEC`
(`spec/41_block_transform.md`). A round is named by its number less one, so rounds 1..16 are 0..15. The combine
patterns are those of `FAMILY = CAST128` (log 12). -/

namespace Sys2Proof.Machine

/-- The combine of function A, rounds 1, 4, 7, ...: `((S[0][a] ^ S[1][b]) - S[2][c]) + S[3][d]` (R71, R74). -/
def combineA (sbox : Option Tables) (i : Word) : Word :=
  add32 (sub32 (tableRead sbox 0 (byte0 i) ^^^ tableRead sbox 1 (byte1 i)) (tableRead sbox 2 (byte2 i)))
    (tableRead sbox 3 (byte3 i))

/-- The combine of function B, rounds 2, 5, 8, ...: `((S[0][a] - S[1][b]) + S[2][c]) ^ S[3][d]` (R72, R74). -/
def combineB (sbox : Option Tables) (i : Word) : Word :=
  add32 (sub32 (tableRead sbox 0 (byte0 i)) (tableRead sbox 1 (byte1 i))) (tableRead sbox 2 (byte2 i)) ^^^
    tableRead sbox 3 (byte3 i)

/-- The combine of function C, rounds 3, 6, 9, ...: `((S[0][a] + S[1][b]) ^ S[2][c]) - S[3][d]` (R73, R74). -/
def combineC (sbox : Option Tables) (i : Word) : Word :=
  sub32 (add32 (tableRead sbox 0 (byte0 i)) (tableRead sbox 1 (byte1 i)) ^^^ tableRead sbox 2 (byte2 i))
    (tableRead sbox 3 (byte3 i))

/-- Function A on masking value `m`, rotation amount `n` and input `d` (R71). -/
def roundA (sbox : Option Tables) (m : Word) (n : Rotation) (d : Word) : Word :=
  combineA sbox (rol32 (add32 m d) n)

/-- Function B (R72). -/
def roundB (sbox : Option Tables) (m : Word) (n : Rotation) (d : Word) : Word :=
  combineB sbox (rol32 (m ^^^ d) n)

/-- Function C: the masking value minus the input (R73). -/
def roundC (sbox : Option Tables) (m : Word) (n : Rotation) (d : Word) : Word :=
  combineC sbox (rol32 (sub32 m d) n)

/-- The number, 1..16, of the round at index `r` (R70). -/
def roundNumber (r : Fin 16) : Nat := r.val + 1

/-- The round function `F(i, D)`: its type depends on the round number modulo 3 alone (R70). -/
def roundFunction (family : Family) (sbox : Option Tables) (km : Vector Word 16) (kr : Vector Rotation 16)
    (r : Fin 16) (d : Word) : Word :=
  match family with
  | .cast128 =>
    if roundNumber r % 3 = 1 then roundA sbox km[r.val] kr[r.val] d
    else if roundNumber r % 3 = 2 then roundB sbox km[r.val] kr[r.val] d
    else roundC sbox km[r.val] kr[r.val] d

/-- One round with round function `f`: `(L, R)` becomes `(R, L ^ F(i, R))` (R75). -/
def feistelRound (f : Fin 16 → Word → Word) (p : Word × Word) (r : Fin 16) : Word × Word :=
  (p.2, p.1 ^^^ f r p.2)

/-- The rounds of a list, in its order (R76, R77). -/
def feistelRounds (f : Fin 16 → Word → Word) (order : List (Fin 16)) (p : Word × Word) : Word × Word :=
  order.foldl (feistelRound f) p

/-- Rounds 1, 2, ..., `ROUNDS` (R76). -/
def forwardOrder (r16 : Bool) : List (Fin 16) := (List.finRange 16).take (rounds r16)

/-- Rounds `ROUNDS`, ..., 2, 1 (R77). -/
def backwardOrder (r16 : Bool) : List (Fin 16) := (forwardOrder r16).reverse

/-- The rounds of a list on a pair of halves, and the final swap: right half first (R76, R77, R78). -/
def transform (f : Fin 16 → Word → Word) (order : List (Fin 16)) (p : Word × Word) : Word × Word :=
  (feistelRounds f order p).swap

/-- `ENC` and `DEC` but for the order of the rounds: the tests, the transform and the response (R76, R77). The test
`blen /= 8` is that the data has no two halves. -/
def blockCommand (order : Bool → List (Fin 16)) (data : List Byte) : Command := fun cfg e =>
  if e.inited = false then reject e .eNotInit
  else
    match splitBlock data with
    | none => reject e .eBlockLen
    | some p =>
      respond e (joinBlock (transform (roundFunction cfg.family cfg.sbox e.km e.kr) (order e.r16) p))

/-- `ENC data` (R76). -/
def execEnc (data : List Byte) (s : State) : Host.Outcome State Fault Refusal :=
  onPort (blockCommand forwardOrder data) s

/-- `DEC data` (R77). -/
def execDec (data : List Byte) (s : State) : Host.Outcome State Fault Refusal :=
  onPort (blockCommand backwardOrder data) s

end Sys2Proof.Machine
end

