-- ==== Sys2Proof/Machine/Field.lean ====
section
/-! DEFINITION. The meanings of `PWDEC` and `SERDEC` (`spec/42_field_ciphers.md`). They read no engine and no table
(R82). -/

namespace Sys2Proof.Machine

/-- The password cipher before stripping, on the bytes from position `i` on: each XORed with one byte of either key
(R83, R84). -/
def passwordBytes (keyA keyB : FieldKey) : Nat → List Byte → List Byte
  | _, [] => []
  | i, b :: bs =>
    (b ^^^ keyA[(indexA i).val]'(indexA i).isLt ^^^ keyB[(indexB i).val]'(indexB i).isLt) ::
      passwordBytes keyA keyB (i + 1) bs

/-- The output of the password cipher: at most 32 bytes are processed, nulls stripped (R83, R85, R88). -/
def passwordOutput (keyA keyB : FieldKey) (dlen : Byte) (buf : List Byte) : List Byte :=
  strip (passwordBytes keyA keyB 0 (buf.take (processed dlen.toNat buf.length passwordCap))) nullByte

/-- The serial cipher before stripping: 156 added to each byte modulo 256 (R86). -/
def serialBytes (bs : List Byte) : List Byte := bs.map (· + serialOffset)

/-- The output of the serial cipher: 156 added to each byte modulo 256, spaces stripped (R86, R87, R88). -/
def serialOutput (serCap : Nat) (dlen : Half) (buf : List Byte) : List Byte :=
  strip (serialBytes (buf.take (processed dlen.toNat buf.length serCap))) spaceByte

/-- `PWDEC dlen, buf` as a command (R83). -/
def pwdecCommand (dlen : Byte) (buf : List Byte) : Command := fun cfg e =>
  respond e (passwordOutput cfg.pwkeyA cfg.pwkeyB dlen buf)

/-- `SERDEC dlen, buf` as a command (R86). -/
def serdecCommand (dlen : Half) (buf : List Byte) : Command := fun cfg e =>
  respond e (serialOutput cfg.serCap dlen buf)

/-- `PWDEC dlen, buf` (R83). -/
def execPwdec (dlen : Byte) (buf : List Byte) (s : State) : Host.Outcome State Fault Refusal :=
  onPort (pwdecCommand dlen buf) s

/-- `SERDEC dlen, buf` (R86). -/
def execSerdec (dlen : Half) (buf : List Byte) (s : State) : Host.Outcome State Fault Refusal :=
  onPort (serdecCommand dlen buf) s

end Sys2Proof.Machine
end

