-- ==== Sys2Proof/Machine/KeySchedule.lean ====
section
/-! DEFINITION. The key schedule of `spec/40_init_keyschedule.md` sections 2 to 4 (R61 to R68). The formulas are those
of `FAMILY = CAST128` (log 12). -/

namespace Sys2Proof.Machine

/-- The four key-schedule lookups of one line, `S5[a] ^ S6[b] ^ S7[c] ^ S8[d]`, in tables 4 to 7 (R30). -/
def mix (sbox : Option Tables) (a b c d : Byte) : Word :=
  tableRead sbox 4 a ^^^ tableRead sbox 5 b ^^^ tableRead sbox 6 c ^^^ tableRead sbox 7 d

/-- Transform `XZ` computes `z` from `x` (R64). -/
def transformXZ (sbox : Option Tables) (x : Array16) : Array16 :=
  let z : Array16 := Vector.replicate 16 0
  let z := putWord z 0 (wordAt x 0 ^^^ mix sbox x[0xD] x[0xF] x[0xC] x[0xE] ^^^ tableRead sbox 6 x[0x8])
  let z := putWord z 1 (wordAt x 2 ^^^ mix sbox z[0x0] z[0x2] z[0x1] z[0x3] ^^^ tableRead sbox 7 x[0xA])
  let z := putWord z 2 (wordAt x 3 ^^^ mix sbox z[0x7] z[0x6] z[0x5] z[0x4] ^^^ tableRead sbox 4 x[0x9])
  putWord z 3 (wordAt x 1 ^^^ mix sbox z[0xA] z[0x9] z[0xB] z[0x8] ^^^ tableRead sbox 5 x[0xB])

/-- Transform `ZX` computes `x` from `z` (R65). -/
def transformZX (sbox : Option Tables) (z : Array16) : Array16 :=
  let x : Array16 := Vector.replicate 16 0
  let x := putWord x 0 (wordAt z 2 ^^^ mix sbox z[0x5] z[0x7] z[0x4] z[0x6] ^^^ tableRead sbox 6 z[0x0])
  let x := putWord x 1 (wordAt z 0 ^^^ mix sbox x[0x0] x[0x2] x[0x1] x[0x3] ^^^ tableRead sbox 7 z[0x2])
  let x := putWord x 2 (wordAt z 1 ^^^ mix sbox x[0x7] x[0x6] x[0x5] x[0x4] ^^^ tableRead sbox 4 z[0x1])
  putWord x 3 (wordAt z 3 ^^^ mix sbox x[0xA] x[0x9] x[0xB] x[0x8] ^^^ tableRead sbox 5 z[0x3])

/-- The four schedule words of one stage (R62 e). -/
structure Words4 where
  w0 : Word
  w1 : Word
  w2 : Word
  w3 : Word
deriving DecidableEq, Repr

/-- Emit pattern `EA` (R66). -/
def emitA (sbox : Option Tables) (a : Array16) : Words4 where
  w0 := mix sbox a[0x8] a[0x9] a[0x7] a[0x6] ^^^ tableRead sbox 4 a[0x2]
  w1 := mix sbox a[0xA] a[0xB] a[0x5] a[0x4] ^^^ tableRead sbox 5 a[0x6]
  w2 := mix sbox a[0xC] a[0xD] a[0x3] a[0x2] ^^^ tableRead sbox 6 a[0x9]
  w3 := mix sbox a[0xE] a[0xF] a[0x1] a[0x0] ^^^ tableRead sbox 7 a[0xC]

/-- Emit pattern `EB` (R66). -/
def emitB (sbox : Option Tables) (a : Array16) : Words4 where
  w0 := mix sbox a[0x3] a[0x2] a[0xC] a[0xD] ^^^ tableRead sbox 4 a[0x8]
  w1 := mix sbox a[0x1] a[0x0] a[0xE] a[0xF] ^^^ tableRead sbox 5 a[0xD]
  w2 := mix sbox a[0x7] a[0x6] a[0x8] a[0x9] ^^^ tableRead sbox 6 a[0x3]
  w3 := mix sbox a[0x5] a[0x4] a[0xA] a[0xB] ^^^ tableRead sbox 7 a[0x7]

/-- Emit pattern `EC` (R66). -/
def emitC (sbox : Option Tables) (a : Array16) : Words4 where
  w0 := mix sbox a[0x3] a[0x2] a[0xC] a[0xD] ^^^ tableRead sbox 4 a[0x9]
  w1 := mix sbox a[0x1] a[0x0] a[0xE] a[0xF] ^^^ tableRead sbox 5 a[0xC]
  w2 := mix sbox a[0x7] a[0x6] a[0x8] a[0x9] ^^^ tableRead sbox 6 a[0x2]
  w3 := mix sbox a[0x5] a[0x4] a[0xA] a[0xB] ^^^ tableRead sbox 7 a[0x6]

/-- Emit pattern `ED` (R66). -/
def emitD (sbox : Option Tables) (a : Array16) : Words4 where
  w0 := mix sbox a[0x8] a[0x9] a[0x7] a[0x6] ^^^ tableRead sbox 4 a[0x3]
  w1 := mix sbox a[0xA] a[0xB] a[0x5] a[0x4] ^^^ tableRead sbox 5 a[0x7]
  w2 := mix sbox a[0xC] a[0xD] a[0x3] a[0x2] ^^^ tableRead sbox 6 a[0x8]
  w3 := mix sbox a[0xE] a[0xF] a[0x1] a[0x0] ^^^ tableRead sbox 7 a[0xD]

/-- Sixteen schedule words in order. -/
def gather (a b c d : Words4) : Vector Word 16 :=
  #v[a.w0, a.w1, a.w2, a.w3, b.w0, b.w1, b.w2, b.w3, c.w0, c.w1, c.w2, c.w3, d.w0, d.w1, d.w2, d.w3]

/-- Four stages, 1 to 4 or 5 to 8, from the array `x` the last stage before them left: the array they leave, and their
sixteen schedule words (R63). -/
def fourStages (sbox : Option Tables) (x : Array16) : Array16 × Vector Word 16 :=
  let z1 := transformXZ sbox x
  let x2 := transformZX sbox z1
  let z3 := transformXZ sbox x2
  let x4 := transformZX sbox z3
  (x4, gather (emitA sbox z1) (emitB sbox x2) (emitC sbox z3) (emitD sbox x4))

/-- The schedule words `K[1..16]` and `K[17..32]` (R62, R63). -/
def scheduleWords (sbox : Option Tables) (key : List Byte) : Vector Word 16 × Vector Word 16 :=
  let first := fourStages sbox (padKey key)
  let second := fourStages sbox first.1
  (first.2, second.2)

/-- `KS(key, SBOX)`: the masking values are `K[1..16]`, the rotation amounts the low five bits of `K[17..32]` (R62, R67,
R68). -/
def keySchedule (family : Family) (sbox : Option Tables) (key : List Byte) : Vector Word 16 × Vector Rotation 16 :=
  match family with
  | .cast128 =>
    let K := scheduleWords sbox key
    (K.1, K.2.map fun w => w.setWidth 5)

end Sys2Proof.Machine
end

