-- ==== Sys2Proof/Machine/Init.lean ====
section
/-! DEFINITION. The meaning of `INIT` (`spec/40_init_keyschedule.md` section 1). -/

namespace Sys2Proof.Machine

/-- The longest key `INIT` accepts (R57). -/
def maxKey : Nat := 16

/-- The tests of `INIT`, in the order tables, key length, re-initialisation: the first that fails (R57, R101). -/
def initReject (cfg : Params) (e : Engine) (key : List Byte) : Option Status :=
  if cfg.tblOk = false then some .eNoTables
  else if key.length = 0 ∨ maxKey < key.length then some .eKeyLen
  else if e.inited = true ∧ cfg.reinit = .reject then some .eReinit
  else none

/-- The engine a successful `INIT` leaves: every register of R15 is written (R56, R58, R59). -/
def initEngine (cfg : Params) (fe : Bool) (key : List Byte) : Engine where
  inited := true
  fenc := fe
  r16 := roundFlag key.length
  km := (keySchedule cfg.family cfg.sbox key).1
  kr := (keySchedule cfg.family cfg.sbox key).2

/-- `INIT fe, key` as a command (R56). -/
def initCommand (fe : Bool) (key : List Byte) : Command := fun cfg e =>
  match initReject cfg e key with
  | some st => reject e st
  | none => respond (initEngine cfg fe key) []

/-- `INIT fe, key` (R56). -/
def execInit (fe : Bool) (key : List Byte) (s : State) : Host.Outcome State Fault Refusal :=
  onPort (initCommand fe key) s

end Sys2Proof.Machine
end

