-- ==== Sys2Proof/Machine/Status.lean ====
section
/-! DEFINITION. The meaning of `STAT` (`spec/43_status.md`). -/

namespace Sys2Proof.Machine

/-- `STAT` as a command: the payload is the byte `ST` (R90). -/
def statCommand : Command := fun cfg e => respond e [statusByte cfg.tblOk e]

/-- `STAT` (R90). -/
def execStat (s : State) : Host.Outcome State Fault Refusal := onPort statCommand s

end Sys2Proof.Machine
end

