-- ==== Sys2Proof/Machine/Dispatch.lean ====
section
/-! DEFINITION. One arm per command. -/

namespace Sys2Proof.Machine

def exec (i : Instr) (s : State) : Host.Outcome State Fault Refusal :=
  match i with
  | .init fe key => Sys2Proof.Machine.execInit fe key s
  | .enc data => Sys2Proof.Machine.execEnc data s
  | .dec data => Sys2Proof.Machine.execDec data s
  | .pwdec dlen buf => Sys2Proof.Machine.execPwdec dlen buf s
  | .serdec dlen buf => Sys2Proof.Machine.execSerdec dlen buf s
  | .stat => Sys2Proof.Machine.execStat s

end Sys2Proof.Machine
end

