-- ==== Sys2Proof/Machine/Port.lean ====
section
/-! DEFINITION. What the block does on each action of the host (`spec/70_reset_and_hazards.md` R108, R114, R116). -/

namespace Sys2Proof.Machine

/-- A rejected frame as a command: the status, and nothing else (R94, R95, R102). -/
def rejectFrame (err : FrameError) : Command := fun _ e => reject e (frameStatus err)

/-- Execute a frame on the executing port: decode it, then run the command or reject the frame (R40, R101). -/
def execFrame (f : Frame) (s : State) : Host.Outcome State Fault Refusal :=
  match decode f with
  | .command i => exec i s
  | .rejected err => onPort (rejectFrame err) s

/-- A frame presented on port `k`: executed to its response, or, while reset is asserted, not accepted (R37, R108; log
9). -/
def presentFrame (k : Nat) (f : Frame) (s : State) : Host.Outcome State Fault Refusal :=
  if s.inReset then .next s else execFrame f (s.select k)

/-- One action of the host (R116). -/
def hostAction (a : HostAction) (s : State) : Host.Outcome State Fault Refusal :=
  match a with
  | .present k f => presentFrame k f s
  | .assertReset _ => .next s.assertReset
  | .releaseReset => .next s.releaseReset

/-- One step: the oldest coming action of the host; with none, the block waits and nothing changes (R23; log 8). -/
def nextAction (s : State) : Host.Outcome State Fault Refusal :=
  match s.inputs with
  | [] => .next s
  | a :: rest => hostAction a (s.expect rest)

end Sys2Proof.Machine
end

