-- ==== Sys2Proof/Machine/Step.lean ====
section
/-! DEFINITION. The step function, and the placing of one instruction before it. -/

namespace Sys2Proof.Machine

/-- One step of the block: the oldest coming action of the host (R37, R116). -/
def step (s : State) : Host.Outcome State Fault Refusal := nextAction s

/-- `s` with the frame of an opcode-table word as the host's next action, presented on port 0, so that the next step
runs it (log 13). Reset is released, since no frame is accepted while it is asserted (R108). -/
def State.withFetchWord (s : State) (nbits w : Nat) : State :=
  { s with inReset := false, inputs := .present 0 (tableFrame nbits w) :: s.inputs }

end Sys2Proof.Machine
end

