-- ==== Sys2Proof/Safety.lean ====
section
/-! DEFINITION. The terms in which claims are stated: the invariant of `spec/10_state.md` R26, what a command leaves
behind, when a frame is accepted, and which runs never stop. -/

namespace Sys2Proof.Machine

/-- The round keys and the round count of `e` are those of `key` (R26). -/
def Engine.keyedBy (cfg : Params) (e : Engine) (key : List Byte) : Prop :=
  1 ≤ key.length ∧ key.length ≤ 16 ∧
    e.km = (keySchedule cfg.family cfg.sbox key).1 ∧ e.kr = (keySchedule cfg.family cfg.sbox key).2 ∧
    (e.r16 = false ↔ key.length < 11)

/-- What holds of an engine in every reachable state: initialised, it has tables and the round keys of some key (R26);
not initialised, its other flags are at their reset value (R90). -/
def Engine.Inv (cfg : Params) (e : Engine) : Prop :=
  (e.inited = true → cfg.tblOk = true ∧ ∃ key, e.keyedBy cfg key) ∧
    (e.inited = false → e.fenc = false ∧ e.r16 = false)

/-- What holds of the block in every reachable state: `NINST` engines, each of them as R26 says. -/
def State.Inv (s : State) : Prop :=
  s.engines.length = s.cfg.ninst ∧ ∀ e ∈ s.engines, e.Inv s.cfg

/-- Engine `k` holds exactly the round keys of the key `last`, that of the last successful `INIT` since reset; with no such
`INIT` it is not initialised (R26). -/
def State.Keyed (s : State) (k : Nat) (last : Option (List Byte)) : Prop :=
  ∀ e, s.engines[k]? = some e →
    (e.inited = last.isSome) ∧ ∀ key, last = some key → s.cfg.tblOk = true ∧ e.keyedBy s.cfg key

/-- The key of the last successful `INIT` on engine `k` after the coming step, from the one before it: an `INIT` that the
three tests of R57 let through sets it, a release of reset clears it, nothing else touches it. -/
def State.lastKey (s : State) (k : Nat) (last : Option (List Byte)) : Option (List Byte) :=
  match s.inputs with
  | .present j f :: _ =>
    match decode f, s.engines[k]? with
    | .command (.init _ key), some e =>
      if j = k ∧ s.inReset = false ∧ s.cfg.sbox.isSome ∧ 1 ≤ key.length ∧ key.length ≤ 16 ∧
          (e.inited = true → s.cfg.reinit = .rederive) then some key else last
    | _, _ => last
  | .releaseReset :: _ => if s.inReset then none else last
  | _ => last

/-- The state after a command on the executing port: its engine is `e`, it has sent the response `r`, and everything else
is as before. -/
def State.answered (s : State) (e : Engine) (r : Frame) : State :=
  { s with engines := s.engines.set s.port e, outputs := s.outputs ++ [⟨s.port, r⟩] }

/-- The coming step executes frame `f` on port `k`, whose engine is `e`; the actions `rest` come after it. -/
def State.Accepts (s : State) (k : Nat) (f : Frame) (rest : List HostAction) (e : Engine) : Prop :=
  s.inputs = .present k f :: rest ∧ s.inReset = false ∧ s.engines[k]? = some e

/-- The state in which that frame executes. -/
def State.accepted (s : State) (k : Nat) (rest : List HostAction) : State :=
  { s with port := k, inputs := rest }

/-- Byte 0 of the frame is an opcode (R47). -/
def legalOpcode (f : Frame) : Prop := ∃ op rest, f = op :: rest ∧ 1 ≤ op.toNat ∧ op.toNat ≤ 6

/-- The header length of the format that byte 0 selects, and the value of its length field, by offset (R41, R49). -/
def frameHeader (f : Frame) : Nat × Nat :=
  let at_ (i : Nat) : Nat := (f.getD i 0).toNat
  match at_ 0 with
  | 1 => (3, at_ 2)
  | 2 => (2, at_ 1)
  | 3 => (2, at_ 1)
  | 4 => (3, at_ 2)
  | 5 => (5, at_ 3 + 256 * at_ 4)
  | _ => (1, 0)

/-- A malformed frame, by the words of R49: empty, or with a legal opcode and too short for its header, or of another
length than header and counted field, or an `INIT` whose `fe` is neither 0 nor 1. -/
def malformed (f : Frame) : Prop :=
  f = [] ∨ (legalOpcode f ∧
    (f.length < (frameHeader f).1 ∨ f.length ≠ (frameHeader f).1 + (frameHeader f).2 ∨
      (f.getD 0 0 = 1 ∧ f.getD 1 0 ≠ 0 ∧ f.getD 1 0 ≠ 1)))

/-- Every frame that the host is still going to present is for a port the block has (R106). -/
def State.PortsExist (s : State) : Prop := ∀ k f, .present k f ∈ s.inputs → k < s.engines.length

/-- The host's actions that concern engine `k`: its own frames, and reset (R38, R108). -/
def actionsOf (k : Nat) (as : List HostAction) : List HostAction :=
  as.filter fun a => match a with
    | .present j _ => j == k
    | _ => true

/-- The responses of port `k`, in order. -/
def responsesOf (k : Nat) (rs : List Response) : List Response := rs.filter fun r => r.port == k

end Sys2Proof.Machine
end

