-- ==== Sys2Proof/Certificates/Slice0/Obligations.lean ====
section
/-! DEFINITION. The statements for the provers. Each docstring names the rule of `spec/` it formalises, or says that it
is the model's choice and names the log entry. A response frame is written out as its bytes. -/

open Sys2Proof Sys2Proof.Machine

/-! ### Operands (`spec/00_scope.md` section 5) -/

/-- R11: rotation by 0 is the identity; by `n` in 1..31 it is `((v * 2^n) mod 2^32) + (v div 2^(32-n))`. -/
def Obligations.RotationFollowsRule : Prop :=
  ∀ v : Word, rol32 v 0 = v ∧
    ∀ n : Rotation, 1 ≤ n.toNat →
      (rol32 v n).toNat = v.toNat * 2 ^ n.toNat % 2 ^ 32 + v.toNat / 2 ^ (32 - n.toNat)

/-- R9, R12: the slices of a word, `be32` and `le16` as sums, and `bytesOf32` inverse to `be32`. -/
def Obligations.WordsAndBytes : Prop :=
  (∀ w : Word, (byte0 w).toNat = w.toNat / 2 ^ 24 ∧ (byte1 w).toNat = w.toNat / 2 ^ 16 % 256 ∧
      (byte2 w).toNat = w.toNat / 2 ^ 8 % 256 ∧ (byte3 w).toNat = w.toNat % 256) ∧
    (∀ b0 b1 b2 b3 : Byte,
      (be32 b0 b1 b2 b3).toNat =
        b0.toNat * 2 ^ 24 + b1.toNat * 2 ^ 16 + b2.toNat * 2 ^ 8 + b3.toNat ∧
      bytesOf32 (be32 b0 b1 b2 b3) = [b0, b1, b2, b3]) ∧
    (∀ w : Word, bytesOf32 w = [byte0 w, byte1 w, byte2 w, byte3 w] ∧
      be32 (byte0 w) (byte1 w) (byte2 w) (byte3 w) = w) ∧
    ∀ b0 b1 : Byte, (le16 b0 b1).toNat = b0.toNat + 256 * b1.toNat

/-- R10: `add32` and `sub32` wrap modulo 2^32. -/
def Obligations.ArithmeticWraps : Prop :=
  ∀ a b : Word, (add32 a b).toNat = (a.toNat + b.toNat) % 2 ^ 32 ∧
    (b.toNat ≤ a.toNat → (sub32 a b).toNat = a.toNat - b.toNat) ∧
    (a.toNat < b.toNat → (sub32 a b).toNat = a.toNat + 2 ^ 32 - b.toNat)

/-! ### Frames (`spec/30_encoding.md`) -/

/-- R41 to R46, R51: decoding the frame of a well-formed command gives the command back, every operand whole. -/
def Obligations.DecodeOfEncode : Prop :=
  ∀ i : Instr, i.wf = true → decode (encode i) = .command i

/-- R41 to R46: a frame that decodes is the frame of the command it decodes to, which is well-formed. -/
def Obligations.EncodeOfDecode : Prop :=
  ∀ (f : Frame) (i : Instr), decode f = .command i → i.wf = true ∧ encode i = f

/-- R94: byte 0 outside `0x01`..`0x06` answers `E_ILLEGAL` whatever follows it, and only that does; the empty frame answers
`E_FRAME`. -/
def Obligations.IllegalOpcodeAnswersIllegal : Prop :=
  (∀ f : Frame, decode f = .rejected .illegalOpcode ↔
      ∃ op tail, f = op :: tail ∧ (op.toNat = 0 ∨ (7 ≤ op.toNat ∧ op.toNat ≤ 255))) ∧
    (∀ (s : State) (k : Nat) (op : Byte) (tail : Frame) (rest : List HostAction) (e : Engine),
      s.Accepts k (op :: tail) rest e → (op.toNat = 0 ∨ (7 ≤ op.toNat ∧ op.toNat ≤ 255)) →
      step s = .next ((s.accepted k rest).answered e [0x01, 0x00, 0x00])) ∧
    ∀ (s : State) (k : Nat) (rest : List HostAction) (e : Engine), s.Accepts k [] rest e →
      step s = .next ((s.accepted k rest).answered e [0x02, 0x00, 0x00])

/-- R49, R95: a malformed frame answers `E_FRAME`, in every state of the engine, before any test of the command; a frame with
a legal opcode that is not malformed is a command. -/
def Obligations.MalformedFrameAnswersFrame : Prop :=
  (∀ (s : State) (k : Nat) (f : Frame) (rest : List HostAction) (e : Engine),
      s.Accepts k f rest e → malformed f →
      step s = .next ((s.accepted k rest).answered e [0x02, 0x00, 0x00])) ∧
    ∀ f : Frame, legalOpcode f → ¬ malformed f → ∃ i, decode f = .command i

/-- R40: no frame of more than 65540 bytes is a command. -/
def Obligations.NoCommandAboveLongestFrame : Prop :=
  ∀ (f : Frame) (i : Instr), decode f = .command i → f.length ≤ 65540

/-- R41 to R47: six frames written out from the rules decode to the commands they stand for. -/
def Obligations.WrittenFramesDecode : Prop :=
  decode [0x01, 0x01, 0x02, 0xAB, 0xCD] = .command (.init true [0xAB, 0xCD]) ∧
    decode [0x02, 0x01, 0x7F] = .command (.enc [0x7F]) ∧
    decode [0x03, 0x01, 0x80] = .command (.dec [0x80]) ∧
    decode [0x04, 0xC8, 0x01, 0x41] = .command (.pwdec 200 [0x41]) ∧
    decode [0x05, 0x34, 0x12, 0x01, 0x00, 0x84] = .command (.serdec 0x1234 [0x84]) ∧
    decode [0x06] = .command .stat

/-- R50: a response frame is the status code, the payload's length least significant byte first, and the payload; no two
statuses have one code. -/
def Obligations.ResponseFrameLayout : Prop :=
  (∀ r : Reply, r.payload.length ≤ 65535 →
      ∃ l0 l1 : Byte, responseFrame r = statusCode r.status :: l0 :: l1 :: r.payload ∧
        (le16 l0 l1).toNat = r.payload.length) ∧
    ∀ a b : Status, statusCode a = statusCode b → a = b

/-! ### The step (`spec/70_reset_and_hazards.md`) -/

/-- R37, R40: when the host presents a frame that decodes to a command on port `k`, the step is `exec` of that command with
port `k` executing and the host's later actions still to come; the command is well-formed. -/
def Obligations.StepRunsDecodedCommand : Prop :=
  ∀ (s : State) (k : Nat) (f : Frame) (rest : List HostAction) (i : Instr),
    s.inputs = .present k f :: rest → s.inReset = false → decode f = .command i →
    i.wf = true ∧ step s = exec i (s.accepted k rest)

/-- The model's choice (log 8): with no action of the host to come, a step changes nothing. -/
def Obligations.WaitingChangesNothing : Prop :=
  ∀ s : State, s.inputs = [] → step s = .next s

/-- R108: while reset is asserted no frame is accepted; asserting reset gives no response; releasing it leaves every engine with its
flags at their reset values and the configuration and responses as they were. The rest is the model's choice: that a frame presented
while reset is asserted is then gone (log 9), that asserting an asserted reset changes nothing (log 14), that the registers keep their
values while reset is held and only the release changes them (log 15), and that commands in progress leave nothing behind (log 16). -/
def Obligations.ResetInput : Prop :=
  (∀ (s : State) (k : Nat) (f : Frame) (rest : List HostAction),
      s.inputs = .present k f :: rest → s.inReset = true → step s = .next { s with inputs := rest }) ∧
    (∀ (s : State) (l : List (Nat × Frame)) (rest : List HostAction), s.inputs = .assertReset l :: rest →
      step s = .next { s with inputs := rest, inReset := true }) ∧
    ∀ (s : State) (rest : List HostAction), s.inputs = .releaseReset :: rest → s.inReset = true →
      ∃ t, step s = .next t ∧ t.inReset = false ∧ t.inputs = rest ∧ t.outputs = s.outputs ∧ t.cfg = s.cfg ∧
        t.port = s.port ∧ t.engines.length = s.engines.length ∧
        ∀ e ∈ t.engines, e.inited = false ∧ e.fenc = false ∧ e.r16 = false

/-! ### `INIT` (`spec/40_init_keyschedule.md`) -/

/-- R56, R58, R59, R60: with tables, a key of 1 to 16 bytes, and an engine that is fresh or may be rekeyed, `INIT` writes every
register and answers `OK` with no payload. -/
def Obligations.InitLoadsRoundKeys : Prop :=
  ∀ (s : State) (e : Engine) (fe : Bool) (key : List Byte),
    s.engines[s.port]? = some e → s.cfg.sbox ≠ none → 1 ≤ key.length → key.length ≤ 16 →
    (e.inited = true → s.cfg.reinit = .rederive) →
    exec (.init fe key) s = .next (s.answered
      { inited := true, fenc := fe, r16 := decide (11 ≤ key.length)
        km := (keySchedule s.cfg.family s.cfg.sbox key).1
        kr := (keySchedule s.cfg.family s.cfg.sbox key).2 } [0x00, 0x00, 0x00])

/-- R57, R97, R100: the tests of `INIT` in order; a failing `INIT` leaves the engine as it was. Under `REINIT = rederive`
`E_REINIT` is never answered. -/
def Obligations.InitTestsInOrder : Prop :=
  ∀ (s : State) (e : Engine) (fe : Bool) (key : List Byte), s.engines[s.port]? = some e →
    (s.cfg.sbox = none → exec (.init fe key) s = .next (s.answered e [0x03, 0x00, 0x00])) ∧
    (s.cfg.sbox ≠ none → (key.length = 0 ∨ 16 < key.length) →
      exec (.init fe key) s = .next (s.answered e [0x04, 0x00, 0x00])) ∧
    (s.cfg.sbox ≠ none → 1 ≤ key.length → key.length ≤ 16 → e.inited = true → s.cfg.reinit = .reject →
      exec (.init fe key) s = .next (s.answered e [0x07, 0x00, 0x00])) ∧
    (s.cfg.reinit = .rederive → ∀ t, exec (.init fe key) s = .next t →
      t.outputs ≠ s.outputs ++ [⟨s.port, [0x07, 0x00, 0x00]⟩])

/-- R96: without tables every `INIT` answers `E_NOTABLES`, whatever its key, and `ENC` and `DEC` of an engine that `INIT` never
initialised answer `E_NOTINIT`; and the tables stay absent. -/
def Obligations.WithoutTablesNothingInitialises : Prop :=
  ∀ (s : State) (e : Engine), s.Inv → s.cfg.sbox = none → s.engines[s.port]? = some e →
    (∀ fe key, exec (.init fe key) s = .next (s.answered e [0x03, 0x00, 0x00])) ∧
    (∀ data, exec (.enc data) s = .next (s.answered e [0x05, 0x00, 0x00]) ∧
      exec (.dec data) s = .next (s.answered e [0x05, 0x00, 0x00])) ∧
    ∀ t, step s = .next t → t.cfg.sbox = none

/-- R58: 1 to 10 key bytes give `R16 = 0`, 11 to 16 give `R16 = 1`; a 10-byte key and the same key with a zero byte after it
have the same padded key and the same schedule, and different round counts. -/
def Obligations.RoundCountFromKeyLength : Prop :=
  (∀ (cfg : Params) (fe : Bool) (key : List Byte),
      (1 ≤ key.length → key.length ≤ 10 → (initEngine cfg fe key).r16 = false) ∧
      (11 ≤ key.length → key.length ≤ 16 → (initEngine cfg fe key).r16 = true)) ∧
    ∀ (cfg : Params) (fe : Bool) (key : List Byte), key.length = 10 →
      padKey (key ++ [0]) = padKey key ∧
      scheduleWords cfg.sbox (key ++ [0]) = scheduleWords cfg.sbox key ∧
      rounds (initEngine cfg fe key).r16 = 12 ∧ rounds (initEngine cfg fe (key ++ [0])).r16 = 16

/-- R61: the padded key holds the key bytes first and zeros after. -/
def Obligations.PaddedKeyLayout : Prop :=
  ∀ (key : List Byte) (i : Fin 16),
    (∀ h : i.val < key.length, (padKey key)[i.val] = key[i.val]) ∧
      (key.length ≤ i.val → (padKey key)[i.val] = 0)

/-- R29: with tables, a table read gives the entry. -/
def Obligations.TableReadGivesEntry : Prop :=
  ∀ (S : Tables) (t : Fin 8) (b : Byte), tableRead (some S) t b = S[t.val][b.toNat]'b.isLt

/-- R64, with the byte order of R32: the four lines of `XZ`, read off the array it leaves. A word of an array is `be32` of its four
bytes, first byte most significant. -/
def Obligations.TransformXZLines : Prop :=
  ∀ (sbox : Option Tables) (x z : Array16), transformXZ sbox x = z →
    be32 z[0] z[1] z[2] z[3] = be32 x[0] x[1] x[2] x[3] ^^^ tableRead sbox 4 x[13] ^^^ tableRead sbox 5 x[15] ^^^
        tableRead sbox 6 x[12] ^^^ tableRead sbox 7 x[14] ^^^ tableRead sbox 6 x[8] ∧
      be32 z[4] z[5] z[6] z[7] = be32 x[8] x[9] x[10] x[11] ^^^ tableRead sbox 4 z[0] ^^^ tableRead sbox 5 z[2] ^^^
        tableRead sbox 6 z[1] ^^^ tableRead sbox 7 z[3] ^^^ tableRead sbox 7 x[10] ∧
      be32 z[8] z[9] z[10] z[11] = be32 x[12] x[13] x[14] x[15] ^^^ tableRead sbox 4 z[7] ^^^ tableRead sbox 5 z[6] ^^^
        tableRead sbox 6 z[5] ^^^ tableRead sbox 7 z[4] ^^^ tableRead sbox 4 x[9] ∧
      be32 z[12] z[13] z[14] z[15] = be32 x[4] x[5] x[6] x[7] ^^^ tableRead sbox 4 z[10] ^^^ tableRead sbox 5 z[9] ^^^
        tableRead sbox 6 z[11] ^^^ tableRead sbox 7 z[8] ^^^ tableRead sbox 5 x[11]

/-- R65, with the byte order of R32: the four lines of `ZX`, read off the array it leaves. -/
def Obligations.TransformZXLines : Prop :=
  ∀ (sbox : Option Tables) (z x : Array16), transformZX sbox z = x →
    be32 x[0] x[1] x[2] x[3] = be32 z[8] z[9] z[10] z[11] ^^^ tableRead sbox 4 z[5] ^^^ tableRead sbox 5 z[7] ^^^
        tableRead sbox 6 z[4] ^^^ tableRead sbox 7 z[6] ^^^ tableRead sbox 6 z[0] ∧
      be32 x[4] x[5] x[6] x[7] = be32 z[0] z[1] z[2] z[3] ^^^ tableRead sbox 4 x[0] ^^^ tableRead sbox 5 x[2] ^^^
        tableRead sbox 6 x[1] ^^^ tableRead sbox 7 x[3] ^^^ tableRead sbox 7 z[2] ∧
      be32 x[8] x[9] x[10] x[11] = be32 z[4] z[5] z[6] z[7] ^^^ tableRead sbox 4 x[7] ^^^ tableRead sbox 5 x[6] ^^^
        tableRead sbox 6 x[5] ^^^ tableRead sbox 7 x[4] ^^^ tableRead sbox 4 z[1] ∧
      be32 x[12] x[13] x[14] x[15] = be32 z[12] z[13] z[14] z[15] ^^^ tableRead sbox 4 x[10] ^^^ tableRead sbox 5 x[9] ^^^
        tableRead sbox 6 x[11] ^^^ tableRead sbox 7 x[8] ^^^ tableRead sbox 5 z[3]

/-- R63: the eight stages, each array made from the one before it; the schedule words `K[1..16]` and `K[17..32]` one by one, stage by
stage; and the round keys they become. -/
def Obligations.ScheduleRunsEightStages : Prop :=
  ∀ (sbox : Option Tables) (key : List Byte) (x0 z1 x2 z3 x4 z5 x6 z7 x8 : Array16),
    padKey key = x0 → transformXZ sbox x0 = z1 → transformZX sbox z1 = x2 → transformXZ sbox x2 = z3 →
    transformZX sbox z3 = x4 → transformXZ sbox x4 = z5 → transformZX sbox z5 = x6 →
    transformXZ sbox x6 = z7 → transformZX sbox z7 = x8 →
    (scheduleWords sbox key).1.toList =
        [(emitA sbox z1).w0, (emitA sbox z1).w1, (emitA sbox z1).w2, (emitA sbox z1).w3,
          (emitB sbox x2).w0, (emitB sbox x2).w1, (emitB sbox x2).w2, (emitB sbox x2).w3,
          (emitC sbox z3).w0, (emitC sbox z3).w1, (emitC sbox z3).w2, (emitC sbox z3).w3,
          (emitD sbox x4).w0, (emitD sbox x4).w1, (emitD sbox x4).w2, (emitD sbox x4).w3] ∧
      (scheduleWords sbox key).2.toList =
        [(emitA sbox z5).w0, (emitA sbox z5).w1, (emitA sbox z5).w2, (emitA sbox z5).w3,
          (emitB sbox x6).w0, (emitB sbox x6).w1, (emitB sbox x6).w2, (emitB sbox x6).w3,
          (emitC sbox z7).w0, (emitC sbox z7).w1, (emitC sbox z7).w2, (emitC sbox z7).w3,
          (emitD sbox x8).w0, (emitD sbox x8).w1, (emitD sbox x8).w2, (emitD sbox x8).w3] ∧
      (keySchedule .cast128 sbox key).1 = (scheduleWords sbox key).1 ∧
      ∀ i : Fin 16, (keySchedule .cast128 sbox key).2[i.val] = ((scheduleWords sbox key).2[i.val]).setWidth 5

/-- R66: the four emit patterns over the entries of tables 4 to 7, named `S5` to `S8` as in R30. -/
def Obligations.EmitPatternWords : Prop :=
  ∀ (S : Tables) (a : Array16),
    let S5 (b : Byte) : Word := S[4][b.toNat]'b.isLt
    let S6 (b : Byte) : Word := S[5][b.toNat]'b.isLt
    let S7 (b : Byte) : Word := S[6][b.toNat]'b.isLt
    let S8 (b : Byte) : Word := S[7][b.toNat]'b.isLt
    emitA (some S) a =
        ⟨S5 a[8] ^^^ S6 a[9] ^^^ S7 a[7] ^^^ S8 a[6] ^^^ S5 a[2],
          S5 a[10] ^^^ S6 a[11] ^^^ S7 a[5] ^^^ S8 a[4] ^^^ S6 a[6],
          S5 a[12] ^^^ S6 a[13] ^^^ S7 a[3] ^^^ S8 a[2] ^^^ S7 a[9],
          S5 a[14] ^^^ S6 a[15] ^^^ S7 a[1] ^^^ S8 a[0] ^^^ S8 a[12]⟩ ∧
      emitB (some S) a =
        ⟨S5 a[3] ^^^ S6 a[2] ^^^ S7 a[12] ^^^ S8 a[13] ^^^ S5 a[8],
          S5 a[1] ^^^ S6 a[0] ^^^ S7 a[14] ^^^ S8 a[15] ^^^ S6 a[13],
          S5 a[7] ^^^ S6 a[6] ^^^ S7 a[8] ^^^ S8 a[9] ^^^ S7 a[3],
          S5 a[5] ^^^ S6 a[4] ^^^ S7 a[10] ^^^ S8 a[11] ^^^ S8 a[7]⟩ ∧
      emitC (some S) a =
        ⟨S5 a[3] ^^^ S6 a[2] ^^^ S7 a[12] ^^^ S8 a[13] ^^^ S5 a[9],
          S5 a[1] ^^^ S6 a[0] ^^^ S7 a[14] ^^^ S8 a[15] ^^^ S6 a[12],
          S5 a[7] ^^^ S6 a[6] ^^^ S7 a[8] ^^^ S8 a[9] ^^^ S7 a[2],
          S5 a[5] ^^^ S6 a[4] ^^^ S7 a[10] ^^^ S8 a[11] ^^^ S8 a[6]⟩ ∧
      emitD (some S) a =
        ⟨S5 a[8] ^^^ S6 a[9] ^^^ S7 a[7] ^^^ S8 a[6] ^^^ S5 a[3],
          S5 a[10] ^^^ S6 a[11] ^^^ S7 a[5] ^^^ S8 a[4] ^^^ S6 a[7],
          S5 a[12] ^^^ S6 a[13] ^^^ S7 a[3] ^^^ S8 a[2] ^^^ S7 a[8],
          S5 a[14] ^^^ S6 a[15] ^^^ S7 a[1] ^^^ S8 a[0] ^^^ S8 a[13]⟩

/-- R67, R68: `km[i]` is schedule word `i`, all 32 bits; `kr[i]` is the low five bits of schedule word `16 + i`. -/
def Obligations.RoundKeysFromScheduleWords : Prop :=
  ∀ (sbox : Option Tables) (key : List Byte) (i : Fin 16),
    (keySchedule .cast128 sbox key).1[i.val] = (scheduleWords sbox key).1[i.val] ∧
      ((keySchedule .cast128 sbox key).2[i.val]).toNat = ((scheduleWords sbox key).2[i.val]).toNat % 32

/-- R69: the key schedule is a function of key and tables, reads the key through the padded key, reads only tables 4 to 7, is
all zero where those are all zero, and with 12 rounds its last four entries are never read. -/
def Obligations.KeyScheduleProperties : Prop :=
  (∀ (s s' : State) (e e' : Engine) (fe fe' : Bool) (key : List Byte),
      s.engines[s.port]? = some e → s'.engines[s'.port]? = some e' → e.inited = false → e'.inited = false →
      s.cfg.sbox ≠ none → s'.cfg.sbox = s.cfg.sbox → s'.cfg.family = s.cfg.family →
      1 ≤ key.length → key.length ≤ 16 →
      ∃ km kr r16, exec (.init fe key) s = .next (s.answered ⟨true, fe, r16, km, kr⟩ [0x00, 0x00, 0x00]) ∧
        exec (.init fe' key) s' = .next (s'.answered ⟨true, fe', r16, km, kr⟩ [0x00, 0x00, 0x00])) ∧
    (∀ (family : Family) (sbox : Option Tables) (key key' : List Byte), padKey key = padKey key' →
      keySchedule family sbox key = keySchedule family sbox key') ∧
    (∀ (S S' : Tables) (key : List Byte),
      (∀ t : Fin 8, 4 ≤ t.val → S[t.val] = S'[t.val]) →
      keySchedule .cast128 (some S) key = keySchedule .cast128 (some S') key) ∧
    (∀ (S : Tables) (key : List Byte),
      (∀ t : Fin 8, 4 ≤ t.val → S[t.val] = Vector.replicate 256 0) →
      scheduleWords (some S) key = (Vector.replicate 16 0, Vector.replicate 16 0) ∧
        keySchedule .cast128 (some S) key = (Vector.replicate 16 0, Vector.replicate 16 0)) ∧
    ∀ (cfg : Params) (e e' : Engine) (data : List Byte),
      e.r16 = false → e'.r16 = false → e.inited = e'.inited →
      (∀ r : Fin 16, r.val < 12 → e.km[r.val] = e'.km[r.val] ∧ e.kr[r.val] = e'.kr[r.val]) →
      (blockCommand forwardOrder data cfg e).2 = (blockCommand forwardOrder data cfg e').2 ∧
        (blockCommand backwardOrder data cfg e).2 = (blockCommand backwardOrder data cfg e').2

/-! ### `ENC` and `DEC` (`spec/41_block_transform.md`) -/

/-- R70 to R74: the round function of round `r + 1`, by the number of the round, over the entries of tables 0 to 3: the most
significant byte of the rotated word indexes table 0 and the least significant table 3. -/
def Obligations.RoundFunctionByNumber : Prop :=
  ∀ (S : Tables) (km : Vector Word 16) (kr : Vector Rotation 16) (r : Fin 16) (d i : Word),
    let E (t : Fin 8) (p : Nat) : Word := S[t.val][i.toNat / 2 ^ p % 256]'(Nat.mod_lt _ (by decide))
    (r.val + 1 ∈ [1, 4, 7, 10, 13, 16] → i = rol32 (km[r.val] + d) kr[r.val] →
      roundFunction .cast128 (some S) km kr r d = ((E 0 24 ^^^ E 1 16) - E 2 8) + E 3 0) ∧
    (r.val + 1 ∈ [2, 5, 8, 11, 14] → i = rol32 (km[r.val] ^^^ d) kr[r.val] →
      roundFunction .cast128 (some S) km kr r d = ((E 0 24 - E 1 16) + E 2 8) ^^^ E 3 0) ∧
    (r.val + 1 ∈ [3, 6, 9, 12, 15] → i = rol32 (km[r.val] - d) kr[r.val] →
      roundFunction .cast128 (some S) km kr r d = ((E 0 24 + E 1 16) ^^^ E 2 8) - E 3 0)

/-- R75, R76, R78: on an initialised engine `ENC` runs rounds 1 to `ROUNDS` from the halves of the block, each taking `(L, R)` to
`(R, L ^ F(i, R))`, and answers the last pair right half first; it writes no register. -/
def Obligations.EncryptsBlock : Prop :=
  ∀ (s : State) (e : Engine) (d0 d1 d2 d3 d4 d5 d6 d7 : Byte) (p : Nat → Word × Word),
    s.engines[s.port]? = some e → e.inited = true →
    p 0 = (be32 d0 d1 d2 d3, be32 d4 d5 d6 d7) →
    (∀ r : Fin 16, p (r.val + 1) =
      ((p r.val).2, (p r.val).1 ^^^ roundFunction s.cfg.family s.cfg.sbox e.km e.kr r (p r.val).2)) →
    ∀ q, q = p (if e.r16 then 16 else 12) →
    exec (.enc [d0, d1, d2, d3, d4, d5, d6, d7]) s =
      .next (s.answered e ([0x00, 0x08, 0x00] ++ bytesOf32 q.2 ++ bytesOf32 q.1))

/-- R75, R77, R78: on an initialised engine `DEC` runs rounds `ROUNDS` to 1 with the same step and answers the last pair right
half first; it writes no register. -/
def Obligations.DecryptsBlock : Prop :=
  ∀ (s : State) (e : Engine) (d0 d1 d2 d3 d4 d5 d6 d7 : Byte) (p : Nat → Word × Word),
    s.engines[s.port]? = some e → e.inited = true →
    p (if e.r16 then 16 else 12) = (be32 d0 d1 d2 d3, be32 d4 d5 d6 d7) →
    (∀ r : Fin 16, p r.val =
      ((p (r.val + 1)).2,
        (p (r.val + 1)).1 ^^^ roundFunction s.cfg.family s.cfg.sbox e.km e.kr r (p (r.val + 1)).2)) →
    exec (.dec [d0, d1, d2, d3, d4, d5, d6, d7]) s =
      .next (s.answered e ([0x00, 0x08, 0x00] ++ bytesOf32 (p 0).2 ++ bytesOf32 (p 0).1))

/-- R98, R99, R101: an engine that is not initialised answers `E_NOTINIT`, whatever the block; an initialised one answers
`E_BLOCKLEN` to every length but 8. -/
def Obligations.BlockTestsInOrder : Prop :=
  ∀ (s : State) (e : Engine) (data : List Byte), s.engines[s.port]? = some e →
    (e.inited = false →
      exec (.enc data) s = .next (s.answered e [0x05, 0x00, 0x00]) ∧
        exec (.dec data) s = .next (s.answered e [0x05, 0x00, 0x00])) ∧
    (e.inited = true → data.length ≠ 8 →
      exec (.enc data) s = .next (s.answered e [0x06, 0x00, 0x00]) ∧
        exec (.dec data) s = .next (s.answered e [0x06, 0x00, 0x00]))

/-- R79: whatever the round function, the transform with the rounds in the opposite order undoes it. -/
def Obligations.FeistelInverse : Prop :=
  ∀ (f : Fin 16 → Word → Word) (order : List (Fin 16)) (p : Word × Word),
    transform f order.reverse (transform f order p) = p

/-- R79: `DEC` returns the block that `ENC` was given, and `ENC` the block that `DEC` was given, on one engine or on two engines
with the same round keys and round count, for any tables. -/
def Obligations.CipherRoundTrip : Prop :=
  ∀ (s s' : State) (e e' : Engine) (data : List Byte),
    s.engines[s.port]? = some e → s'.engines[s'.port]? = some e' →
    e.inited = true → e'.inited = true → e'.km = e.km → e'.kr = e.kr → e'.r16 = e.r16 →
    s'.cfg.sbox = s.cfg.sbox → s'.cfg.family = s.cfg.family → data.length = 8 →
    (∃ c, c.length = 8 ∧ exec (.enc data) s = .next (s.answered e ([0x00, 0x08, 0x00] ++ c)) ∧
      exec (.dec c) s' = .next (s'.answered e' ([0x00, 0x08, 0x00] ++ data))) ∧
    ∃ c, c.length = 8 ∧ exec (.dec data) s = .next (s.answered e ([0x00, 0x08, 0x00] ++ c)) ∧
      exec (.enc c) s' = .next (s'.answered e' ([0x00, 0x08, 0x00] ++ data))

/-- R80: `ENC` and `DEC` write no register, and their response depends only on the block, `KM`, `KR`, `R16`, `INITED` and tables 0
to 3 (and `FAMILY`). -/
def Obligations.CipherReadsOnlyItsInputs : Prop :=
  ∀ (s s' : State) (e e' : Engine) (data : List Byte),
    s.engines[s.port]? = some e → s'.engines[s'.port]? = some e' →
    e'.inited = e.inited → e'.km = e.km → e'.kr = e.kr → e'.r16 = e.r16 → s'.cfg.family = s.cfg.family →
    (∀ (t : Fin 8) (b : Byte), t.val < 4 → tableRead s'.cfg.sbox t b = tableRead s.cfg.sbox t b) →
    (∃ r, exec (.enc data) s = .next (s.answered e r) ∧ exec (.enc data) s' = .next (s'.answered e' r)) ∧
    ∃ r, exec (.dec data) s = .next (s.answered e r) ∧ exec (.dec data) s' = .next (s'.answered e' r)

/-- `spec/95_test_vectors.md` section 3.5: with tables 0 to 3 all zero, `ENC` and `DEC` exchange the halves of the block, whatever
the round keys and the round count. -/
def Obligations.ZeroTablesExchangeHalves : Prop :=
  ∀ (s : State) (e : Engine) (S : Tables) (d0 d1 d2 d3 d4 d5 d6 d7 : Byte),
    s.engines[s.port]? = some e → e.inited = true → s.cfg.sbox = some S →
    (∀ (t : Fin 8) (b : Fin 256), t.val < 4 → S[t.val][b.val] = 0) →
    exec (.enc [d0, d1, d2, d3, d4, d5, d6, d7]) s =
        .next (s.answered e [0x00, 0x08, 0x00, d4, d5, d6, d7, d0, d1, d2, d3]) ∧
      exec (.dec [d0, d1, d2, d3, d4, d5, d6, d7]) s =
        .next (s.answered e [0x00, 0x08, 0x00, d4, d5, d6, d7, d0, d1, d2, d3])

/-- R81: with the same round keys, the 16-round transform is the 12-round one carried on through rounds 13 to 16. -/
def Obligations.SixteenRoundsContinueTwelve : Prop :=
  ∀ (f : Fin 16 → Word → Word) (p : Word × Word),
    feistelRounds f (forwardOrder true) p =
      feistelRounds f [12, 13, 14, 15] (feistelRounds f (forwardOrder false) p)

/-! ### `PWDEC` and `SERDEC` (`spec/42_field_ciphers.md`) -/

/-- R83, R88: `PWDEC` takes the first `min(dlen, alen, 32)` bytes, XORs byte `i` with `PWKEY_A[(i*44) mod 32]` and
`PWKEY_B[(i*99) mod 32]`, removes the null bytes and answers `OK`; it writes no register. -/
def Obligations.PasswordCipherAnswers : Prop :=
  ∀ (s : State) (e : Engine) (dlen : Byte) (buf : List Byte), s.engines[s.port]? = some e →
    ∀ n p, n = min dlen.toNat (min buf.length 32) →
    p = ((List.range n).map fun i =>
        buf.getD i 0 ^^^ s.cfg.pwkeyA[i * 44 % 32]'(Nat.mod_lt _ (by decide)) ^^^
          s.cfg.pwkeyB[i * 99 % 32]'(Nat.mod_lt _ (by decide))).filter (· ≠ 0) →
    p.length ≤ 32 ∧
      exec (.pwdec dlen buf) s =
        .next (s.answered e (0x00 :: BitVec.ofNat 8 p.length :: 0x00 :: p))

/-- R84: the two index mappings, tabulated; `(i*44) mod 32` has period 8 and reaches only the multiples of 4, so the other bytes of
`PWKEY_A` never influence an output; `(i*99) mod 32` is a permutation. -/
def Obligations.PasswordIndexMappings : Prop :=
  (List.range 32).map (fun i => (indexA i).val) =
      [0, 12, 24, 4, 16, 28, 8, 20, 0, 12, 24, 4, 16, 28, 8, 20,
       0, 12, 24, 4, 16, 28, 8, 20, 0, 12, 24, 4, 16, 28, 8, 20] ∧
    (List.range 32).map (fun i => (indexB i).val) =
      [0, 3, 6, 9, 12, 15, 18, 21, 24, 27, 30, 1, 4, 7, 10, 13,
       16, 19, 22, 25, 28, 31, 2, 5, 8, 11, 14, 17, 20, 23, 26, 29] ∧
    (∀ i, (indexA i).val = i * 12 % 32 ∧ indexA (i + 8) = indexA i ∧ (indexA i).val % 4 = 0) ∧
    (∀ i, (indexB i).val = i * 3 % 32) ∧ (∀ m : Fin 32, ∃ i, i < 32 ∧ indexB i = m) ∧
    (∀ i, i ≤ 31 → i * 44 ≤ 3069 ∧ i * 99 ≤ 3069) ∧
    ∀ (a a' b : FieldKey) (dlen : Byte) (buf : List Byte),
      (∀ j : Fin 32, j.val % 4 = 0 → a[j.val] = a'[j.val]) →
      passwordOutput a b dlen buf = passwordOutput a' b dlen buf

/-- R85: the nulls are removed from the XORed bytes wherever they stand and the others keep their order; the output is shorter by
the number of nulls; a declared size of 0 gives the empty output for any buffer. -/
def Obligations.PasswordNullsStripped : Prop :=
  ∀ (a b : FieldKey) (dlen : Byte) (buf t : List Byte),
    t = passwordBytes a b 0 (buf.take (processed dlen.toNat buf.length 32)) →
    (passwordOutput a b dlen buf).Sublist t ∧ (0 : Byte) ∉ passwordOutput a b dlen buf ∧
      (∀ v : Byte, v ≠ 0 → (passwordOutput a b dlen buf).count v = t.count v) ∧
      (passwordOutput a b dlen buf).length = t.length - t.count 0 ∧
      t.length = min dlen.toNat (min buf.length 32) ∧
      (dlen = 0 → passwordOutput a b dlen buf = [])

/-- R86, R88: `SERDEC` takes the first `min(dlen, alen, SER_CAP)` bytes, adds 156 to each modulo 256, removes the spaces and answers
`OK`; it writes no register. -/
def Obligations.SerialCipherAnswers : Prop :=
  ∀ (s : State) (e : Engine) (dlen : Half) (buf : List Byte), s.engines[s.port]? = some e →
    ∀ n p, n = min dlen.toNat (min buf.length s.cfg.serCap) →
    p = ((buf.take n).map fun b => BitVec.ofNat 8 ((b.toNat + 156) % 256)).filter (· ≠ 0x20) →
    p.length ≤ min s.cfg.serCap 65535 ∧
      exec (.serdec dlen buf) s =
        .next (s.answered e
          (0x00 :: BitVec.ofNat 8 (p.length % 256) :: BitVec.ofNat 8 (p.length / 256) :: p))

/-- R87: every `0x20` is removed from the result bytes, wherever it stands, and the other bytes keep their order. The result bytes are
`serialBytes` of the bytes processed. -/
def Obligations.SerialSpacesStripped : Prop :=
  ∀ (cap : Nat) (dlen : Half) (buf t : List Byte),
    t = (buf.take (processed dlen.toNat buf.length cap)).map (fun b => b + 156) →
    (serialOutput cap dlen buf).Sublist t ∧ (0x20 : Byte) ∉ serialOutput cap dlen buf ∧
      (∀ v : Byte, v ≠ 0x20 → (serialOutput cap dlen buf).count v = t.count v) ∧
      t = serialBytes (buf.take (processed dlen.toNat buf.length cap))

/-- R88: no declared length is an error, be it above the cap or above the length of the buffer: the response is `OK`. Where the buffer
reaches `min(declared, cap)`, bytes appended to it are ignored. -/
def Obligations.FieldCiphersIgnoreTail : Prop :=
  ∀ (s : State) (e : Engine) (buf tail : List Byte), s.engines[s.port]? = some e →
    (∀ dlen : Byte, ∃ r, exec (.pwdec dlen buf) s = .next (s.answered e (0x00 :: r)) ∧
      ((dlen.toNat ≤ buf.length ∨ 32 ≤ buf.length) →
        exec (.pwdec dlen (buf ++ tail)) s = .next (s.answered e (0x00 :: r)))) ∧
    ∀ dlen : Half, ∃ r, exec (.serdec dlen buf) s = .next (s.answered e (0x00 :: r)) ∧
      ((dlen.toNat ≤ buf.length ∨ s.cfg.serCap ≤ buf.length) →
        exec (.serdec dlen (buf ++ tail)) s = .next (s.answered e (0x00 :: r)))

/-- R82: the field ciphers read no engine state and no table and write none, give the same response on every instance, before and
after `INIT` and without tables, and never reject; byte `i` of either cipher before stripping depends on
input byte `i` and on `i` alone. -/
def Obligations.FieldCiphersAreStateless : Prop :=
  (∀ (s s' : State) (e e' : Engine), s.engines[s.port]? = some e → s'.engines[s'.port]? = some e' →
      s'.cfg.pwkeyA = s.cfg.pwkeyA → s'.cfg.pwkeyB = s.cfg.pwkeyB → s'.cfg.serCap = s.cfg.serCap →
      (∀ (dlen : Byte) (buf : List Byte), ∃ r, exec (.pwdec dlen buf) s = .next (s.answered e (0x00 :: r)) ∧
        exec (.pwdec dlen buf) s' = .next (s'.answered e' (0x00 :: r))) ∧
      ∀ (dlen : Half) (buf : List Byte), ∃ r, exec (.serdec dlen buf) s = .next (s.answered e (0x00 :: r)) ∧
        exec (.serdec dlen buf) s' = .next (s'.answered e' (0x00 :: r))) ∧
    ∀ (a b : FieldKey) (buf buf' : List Byte) (i : Nat), buf[i]? = buf'[i]? →
      (passwordBytes a b 0 buf)[i]? = (passwordBytes a b 0 buf')[i]? ∧ (serialBytes buf)[i]? = (serialBytes buf')[i]?

/-! ### `STAT` (`spec/43_status.md`) -/

/-- R90: `STAT` answers `OK` and the one byte `TBL_OK + 2 * INITED + 4 * FENC + 8 * R16`; it writes no register. -/
def Obligations.StatusAnswers : Prop :=
  ∀ (s : State) (e : Engine), s.engines[s.port]? = some e →
    ∃ st : Byte, exec .stat s = .next (s.answered e [0x00, 0x01, 0x00, st]) ∧
      st.toNat = (if s.cfg.sbox = none then 0 else 1) + (if e.inited then 2 else 0) +
        (if e.fenc then 4 else 0) + (if e.r16 then 8 else 0)

/-- R91: in every state that keeps the invariant, `ST` is `0x00` without tables, `0x01` with tables before `INIT`, and one of `0x03`,
`0x07`, `0x0B`, `0x0F` after it, with `FENC` and `R16` in bits 2 and 3; an initialised engine has tables. -/
def Obligations.StatusValues : Prop :=
  ∀ (s : State) (e : Engine), s.Inv → e ∈ s.engines →
    (s.cfg.sbox = none → e.inited = false ∧ statusByte s.cfg.tblOk e = 0x00) ∧
    (s.cfg.sbox ≠ none → e.inited = false → statusByte s.cfg.tblOk e = 0x01) ∧
    (e.inited = true → s.cfg.sbox ≠ none ∧ statusByte s.cfg.tblOk e ∈ [0x03, 0x07, 0x0B, 0x0F] ∧
      ((statusByte s.cfg.tblOk e).getLsbD 2 = e.fenc ∧ (statusByte s.cfg.tblOk e).getLsbD 3 = e.r16))

/-! ### The whole machine -/

/-- R15, R21, R24, R35, R38: what a command leaves unchanged. Every command changes at most the engine of its own port and sends one
response; every command but `INIT` changes no engine. -/
def Obligations.CommandFrame : Prop :=
  ∀ (i : Instr) (s t : State), exec i s = .next t →
    t.cfg = s.cfg ∧ t.port = s.port ∧ t.inReset = s.inReset ∧ t.resets = s.resets ∧ t.inputs = s.inputs ∧
      (∃ r, t.outputs = s.outputs ++ [⟨s.port, r⟩]) ∧ t.engines.length = s.engines.length ∧
      (∀ k, k ≠ s.port → t.engines[k]? = s.engines[k]?) ∧
      ((∀ fe key, i ≠ .init fe key) → t.engines = s.engines)

/-- R102: a frame whose response is not `OK` leaves every engine exactly as before and answers a code of 1 to 7 with `rlen` 0 and no
payload. -/
def Obligations.RejectIsPrecise : Prop :=
  ∀ (s : State) (k : Nat) (f : Frame) (rest : List HostAction) (e : Engine), s.Accepts k f rest e →
    ∃ t r, step s = .next t ∧ t.outputs = s.outputs ++ [⟨k, r⟩] ∧
      (r.head? ≠ some 0x00 → t.engines = s.engines ∧
        ∃ st : Byte, 1 ≤ st.toNat ∧ st.toNat ≤ 7 ∧ r = [st, 0x00, 0x00])

/-- R103: after a reject, the next frame runs as if the rejected one had not been presented: same engines, same response. -/
def Obligations.RejectsAreNotSticky : Prop :=
  ∀ (s : State) (k j : Nat) (f g : Frame) (rest : List HostAction) (e : Engine) (t : State) (r : Frame),
    s.Accepts k f (.present j g :: rest) e → j < s.engines.length →
    step s = .next t → t.outputs = s.outputs ++ [⟨k, r⟩] → r.head? ≠ some 0x00 →
    ∃ u v q, step t = .next u ∧ step { s with inputs := .present j g :: rest } = .next v ∧
      u.engines = v.engines ∧ u.outputs = s.outputs ++ [⟨k, r⟩, ⟨j, q⟩] ∧ v.outputs = s.outputs ++ [⟨j, q⟩]

/-- R37, R114: an `ENC` presented after a successful `INIT` on the same port uses the whole new round key set. -/
def Obligations.EncryptAfterInit : Prop :=
  ∀ (s : State) (k : Nat) (e : Engine) (fe : Bool) (key data : List Byte) (p : Word × Word) (rest : List HostAction),
    s.Accepts k (encode (.init fe key)) (.present k (encode (.enc data)) :: rest) e →
    s.cfg.sbox ≠ none → 1 ≤ key.length → key.length ≤ 16 → e.inited = false → splitBlock data = some p →
    ∀ ks q, ks = keySchedule s.cfg.family s.cfg.sbox key →
    q = transform (roundFunction s.cfg.family s.cfg.sbox ks.1 ks.2)
      (forwardOrder (decide (11 ≤ key.length))) p →
    ∃ t, Host.Core.run Sys2Proof.core 2 s = .next t ∧ t.inputs = rest ∧
      t.outputs = s.outputs ++ [⟨k, [0x00, 0x00, 0x00]⟩, ⟨k, [0x00, 0x08, 0x00] ++ joinBlock q⟩]

/-- R40, R50: from a state out of reset, a run of frames on ports the block has sends exactly one response per frame, on the port the
frame was presented on, in order. -/
def Obligations.OneResponsePerFrame : Prop :=
  ∀ (s : State) (fs : List (Nat × Frame)), s.inReset = false → (∀ x ∈ fs, x.1 < s.engines.length) →
    s.inputs = fs.map (fun x => HostAction.present x.1 x.2) →
    ∃ t rs, Host.Core.run Sys2Proof.core fs.length s = .next t ∧ t.inputs = [] ∧
      t.outputs = s.outputs ++ rs ∧ rs.map (fun r => r.port) = fs.map (fun x => x.1)

/-- R25: the response to a frame, and the engine after it, are a function of the engine, the configuration and the frame alone:
nothing else of two states, not even the port, makes a difference. -/
def Obligations.ResponseIsFunctionOfEngine : Prop :=
  ∀ (s s' : State) (k k' : Nat) (f : Frame) (rest rest' : List HostAction) (e : Engine),
    s.Accepts k f rest e → s'.Accepts k' f rest' e → s'.cfg = s.cfg →
    ∃ e' r, step s = .next ((s.accepted k rest).answered e' r) ∧
      step s' = .next ((s'.accepted k' rest').answered e' r)

/-- R19, R20, R90, R105: no command but `ENC` and `DEC` lets the round keys show: on two engines that differ only there, `INIT`, `PWDEC`,
`SERDEC` and `STAT` answer the same. -/
def Obligations.RoundKeysDoNotShow : Prop :=
  ∀ (i : Instr) (s s' : State) (e e' : Engine), (∀ data, i ≠ .enc data ∧ i ≠ .dec data) →
    s.engines[s.port]? = some e → s'.engines[s'.port]? = some e' → s'.cfg = s.cfg →
    e'.inited = e.inited → e'.fenc = e.fenc → e'.r16 = e.r16 →
    ∃ t t' r, exec i s = .next t ∧ exec i s' = .next t' ∧ t.outputs = s.outputs ++ [⟨s.port, r⟩] ∧
      t'.outputs = s'.outputs ++ [⟨s'.port, r⟩]

/-- R16, R108: an engine that was initialised before a step and is not after it has been reset by that step. That it is the release of
reset, and not its assertion, that clears `INITED` is the model's choice (log 15). -/
def Obligations.OnlyResetClearsInited : Prop :=
  ∀ (s t : State) (k : Nat) (e e' : Engine), step s = .next t → s.engines[k]? = some e →
    t.engines[k]? = some e' → e.inited = true → e'.inited = false →
    s.inReset = true ∧ ∃ rest, s.inputs = .releaseReset :: rest

/-- R109: the configuration is the same throughout a run, and so is the number of engines. -/
def Obligations.ConfigurationIsConstant : Prop :=
  ∀ (n : Nat) (s t : State), Host.Core.run Sys2Proof.core n s = .next t →
    t.cfg = s.cfg ∧ t.engines.length = s.engines.length

/-- R15, R26, R108: the invariant holds right after reset. -/
def Obligations.InvariantAtReset : Prop := State.reset.Inv

/-- R26, R90: every step keeps the invariant: `NINST` engines; an initialised engine has tables and the round keys and round count of
some key of 1 to 16 bytes; one that is not has its flags at their reset values. -/
def Obligations.InvariantKept : Prop :=
  ∀ s t : State, s.Inv → step s = .next t → t.Inv

/-- R26: right after reset no engine holds a key. -/
def Obligations.NoKeyAtReset : Prop := ∀ k, State.reset.Keyed k none

/-- R26: at every step, an engine holds exactly the round keys and the round count of the key of its last successful `INIT` since
reset. That an engine still holds them while reset is held, and loses them at the release, is the model's choice (log 15). -/
def Obligations.RoundKeysAreOfLastKey : Prop :=
  ∀ (s t : State) (k : Nat) (last : Option (List Byte)), s.Keyed k last → step s = .next t →
    t.Keyed k (s.lastKey k last)

/-- R92: the block has no failure but the reject: a run whose frames are for ports the block has never stops, whatever the frames
hold. That the steps after the last action answer too is the model's choice (log 8). -/
def Obligations.RunsNeverStop : Prop :=
  ∀ (n : Nat) (s : State), s.PortsExist → ∃ t, Host.Core.run Sys2Proof.core n s = .next t

/-- R38: engines are independent. A run of all the host's actions leaves engine `k` as the run of the actions that concern engine `k`
alone does, and sends the same responses on port `k`: the frames on the other ports make no difference. R38 speaks of the responses. That
`KM` and `KR` of engine `k` are equal after a reset in both runs is the model's choice (log 5): the spec leaves them unspecified, and the
model draws them by the number of the reset and of the engine. -/
def Obligations.EnginesAreIndependent : Prop :=
  ∀ (s t u : State) (k : Nat),
    Host.Core.run Sys2Proof.core s.inputs.length s = .next t →
    Host.Core.run Sys2Proof.core (actionsOf k s.inputs).length { s with inputs := actionsOf k s.inputs } = .next u →
    u.engines[k]? = t.engines[k]? ∧ responsesOf k u.outputs = responsesOf k t.outputs

/-- The model's choice (log 10): a frame for a port the block does not have stops the run. -/
def Obligations.AbsentPortStops : Prop :=
  ∀ (s : State) (k : Nat) (f : Frame) (rest : List HostAction), s.inputs = .present k f :: rest → s.inReset = false →
    s.engines.length ≤ k → step s = .fault .noSuchPort
end

