-- ==== Sys2Proof/Laws/Decode.lean ====
section
/-! SUPPORT. The small lemmas of the decoder and the encoder. -/

namespace Sys2Proof

@[simp] theorem Instr.wf_init (fe : Bool) (key : List Byte) :
    (Instr.init fe key).wf = true ↔ key.length ≤ 255 := decide_eq_true_iff

@[simp] theorem Instr.wf_enc (data : List Byte) : (Instr.enc data).wf = true ↔ data.length ≤ 255 :=
  decide_eq_true_iff

@[simp] theorem Instr.wf_dec (data : List Byte) : (Instr.dec data).wf = true ↔ data.length ≤ 255 :=
  decide_eq_true_iff

@[simp] theorem Instr.wf_pwdec (dlen : Byte) (buf : List Byte) :
    (Instr.pwdec dlen buf).wf = true ↔ buf.length ≤ 255 := decide_eq_true_iff

@[simp] theorem Instr.wf_serdec (dlen : Half) (buf : List Byte) :
    (Instr.serdec dlen buf).wf = true ↔ buf.length ≤ 65535 := decide_eq_true_iff

@[simp] theorem Instr.wf_stat : Instr.stat.wf = true := rfl

/-- `le16` as a sum. -/
theorem le16_toNat (b0 b1 : Byte) : (le16 b0 b1).toNat = b0.toNat + 256 * b1.toNat := by
  have h := b0.isLt
  simp only [le16, BitVec.toNat_append]
  rw [Nat.shiftLeft_eq, Nat.mul_comm, ← Nat.two_pow_add_eq_or_of_lt h]
  omega

/-- Assembling the two bytes of a field gives the field. -/
theorem le16_bytes (h : Half) : le16 (h.setWidth 8) ((h >>> 8).setWidth 8) = h := by
  apply BitVec.eq_of_toNat_eq
  have := h.isLt
  simp only [le16_toNat, BitVec.toNat_setWidth, BitVec.toNat_ushiftRight, Nat.shiftRight_eq_div_pow]
  omega

/-- Taking apart the field that two bytes make gives the bytes. -/
theorem bytesOf16_le16 (b0 b1 : Byte) : bytesOf16 (le16 b0 b1) = [b0, b1] := by
  have h0 := b0.isLt
  have h1 := b1.isLt
  simp only [bytesOf16, List.cons.injEq, and_true]
  constructor <;> apply BitVec.eq_of_toNat_eq <;>
    simp only [BitVec.toNat_setWidth, BitVec.toNat_ushiftRight, le16_toNat, Nat.shiftRight_eq_div_pow] <;> omega

@[simp] theorem bytesOf16_length (h : Half) : (bytesOf16 h).length = 2 := rfl

/-- A length that fits a 1-byte field is read back. -/
theorem count8_toNat {n : Nat} (h : n ≤ maxCount8) : (count8 n).toNat = n := by
  simp only [maxCount8] at h
  simp only [count8, BitVec.toNat_ofNat]
  omega

/-- A length that fits a 2-byte field is read back. -/
theorem count16_toNat {n : Nat} (h : n ≤ maxCount16) : (count16 n).toNat = n := by
  simp only [maxCount16] at h
  simp only [count16, BitVec.toNat_ofNat]
  omega

/-- The 1-byte length field a frame holds is the one the encoder writes. -/
theorem count8_of_toNat (b : Byte) : count8 b.toNat = b := by simp [count8]

/-- The 2-byte length field a frame holds is the one the encoder writes. -/
theorem count16_of_toNat (h : Half) : count16 h.toNat = h := by simp [count16]

/-- The header check gives the command exactly when the counted bytes are all there. -/
theorem counted_eq_command {n : Nat} {body : List Byte} {i j : Instr} :
    counted n body i = .command j ↔ body.length = n ∧ i = j := by
  unfold counted
  split <;> simp_all

/-- A direction byte that is legal is 0 or 1. -/
theorem directionOf_eq_some {fe : Byte} {b : Bool} :
    directionOf fe = some b ↔ (fe = 0 ∧ b = false) ∨ (fe = 1 ∧ b = true) := by
  unfold directionOf
  constructor
  · intro h
    split at h
    · exact .inl ⟨‹_›, by simpa using h.symm⟩
    · split at h
      · exact .inr ⟨‹_›, by simpa using h.symm⟩
      · simp at h
  · rintro (⟨rfl, rfl⟩ | ⟨rfl, rfl⟩) <;> decide

/-- Everything a frame that decodes can be. -/
theorem decode_cases {f : Frame} {i : Instr} (h : decode f = .command i) :
    (∃ fe b klen key, directionOf fe = some b ∧ f = opInit :: fe :: klen :: key ∧ key.length = klen.toNat ∧
      i = .init b key) ∨
    (∃ blen data, f = opEnc :: blen :: data ∧ data.length = blen.toNat ∧ i = .enc data) ∨
    (∃ blen data, f = opDec :: blen :: data ∧ data.length = blen.toNat ∧ i = .dec data) ∨
    (∃ dlen alen buf, f = opPwdec :: dlen :: alen :: buf ∧ buf.length = alen.toNat ∧ i = .pwdec dlen buf) ∨
    (∃ d0 d1 a0 a1 buf, f = opSerdec :: d0 :: d1 :: a0 :: a1 :: buf ∧ buf.length = (le16 a0 a1).toNat ∧
      i = .serdec (le16 d0 d1) buf) ∨
    (f = [opStat] ∧ i = .stat) := by
  match f with
  | [] => simp [decode] at h
  | op :: rest =>
    simp only [decode] at h
    split at h
    · subst_vars
      unfold decodeK at h
      split at h
      · split at h
        · rename_i hb
          obtain ⟨hl, rfl⟩ := counted_eq_command.mp h
          exact .inl ⟨_, _, _, _, hb, rfl, hl, rfl⟩
        · simp at h
      · simp at h
    split at h
    · subst_vars
      unfold decodeB at h
      split at h
      · obtain ⟨hl, rfl⟩ := counted_eq_command.mp h
        exact .inr (.inl ⟨_, _, rfl, hl, rfl⟩)
      · simp at h
    split at h
    · subst_vars
      unfold decodeB at h
      split at h
      · obtain ⟨hl, rfl⟩ := counted_eq_command.mp h
        exact .inr (.inr (.inl ⟨_, _, rfl, hl, rfl⟩))
      · simp at h
    split at h
    · subst_vars
      unfold decodeP at h
      split at h
      · obtain ⟨hl, rfl⟩ := counted_eq_command.mp h
        exact .inr (.inr (.inr (.inl ⟨_, _, _, rfl, hl, rfl⟩)))
      · simp at h
    split at h
    · subst_vars
      unfold decodeS at h
      split at h
      · obtain ⟨hl, rfl⟩ := counted_eq_command.mp h
        exact .inr (.inr (.inr (.inr (.inl ⟨_, _, _, _, _, rfl, hl, rfl⟩))))
      · simp at h
    split at h
    · subst_vars
      obtain ⟨hl, rfl⟩ := counted_eq_command.mp h
      rw [List.length_eq_zero_iff] at hl
      exact .inr (.inr (.inr (.inr (.inr ⟨by rw [hl], rfl⟩))))
    · simp at h

end Sys2Proof
end

