-- ==== Sys2Proof/Laws/State.lean ====
section
/-! SUPPORT. One lemma per field per update of State, and what the two updates that look at the state can do. -/

namespace Sys2Proof.Machine

@[simp] theorem State.select_cfg (s : State) (k : Nat) : (s.select k).cfg = s.cfg := rfl
@[simp] theorem State.select_engines (s : State) (k : Nat) : (s.select k).engines = s.engines := rfl
@[simp] theorem State.select_port (s : State) (k : Nat) : (s.select k).port = k := rfl
@[simp] theorem State.select_inReset (s : State) (k : Nat) : (s.select k).inReset = s.inReset := rfl
@[simp] theorem State.select_resets (s : State) (k : Nat) : (s.select k).resets = s.resets := rfl
@[simp] theorem State.select_inputs (s : State) (k : Nat) : (s.select k).inputs = s.inputs := rfl
@[simp] theorem State.select_outputs (s : State) (k : Nat) : (s.select k).outputs = s.outputs := rfl

@[simp] theorem State.expect_cfg (s : State) (rest : List HostAction) : (s.expect rest).cfg = s.cfg := rfl
@[simp] theorem State.expect_engines (s : State) (rest : List HostAction) : (s.expect rest).engines = s.engines :=
    rfl
@[simp] theorem State.expect_port (s : State) (rest : List HostAction) : (s.expect rest).port = s.port := rfl
@[simp] theorem State.expect_inReset (s : State) (rest : List HostAction) : (s.expect rest).inReset = s.inReset :=
    rfl
@[simp] theorem State.expect_resets (s : State) (rest : List HostAction) : (s.expect rest).resets = s.resets := rfl
@[simp] theorem State.expect_inputs (s : State) (rest : List HostAction) : (s.expect rest).inputs = rest := rfl
@[simp] theorem State.expect_outputs (s : State) (rest : List HostAction) : (s.expect rest).outputs = s.outputs :=
    rfl

@[simp] theorem State.answer_cfg (s : State) (a : Engine × Reply) : (s.answer a).cfg = s.cfg := rfl
@[simp] theorem State.answer_engines (s : State) (a : Engine × Reply) : (s.answer a).engines = s.engines.set s.port a.1 :=
    rfl
@[simp] theorem State.answer_port (s : State) (a : Engine × Reply) : (s.answer a).port = s.port := rfl
@[simp] theorem State.answer_inReset (s : State) (a : Engine × Reply) : (s.answer a).inReset = s.inReset := rfl
@[simp] theorem State.answer_resets (s : State) (a : Engine × Reply) : (s.answer a).resets = s.resets := rfl
@[simp] theorem State.answer_inputs (s : State) (a : Engine × Reply) : (s.answer a).inputs = s.inputs := rfl
@[simp] theorem State.answer_outputs (s : State) (a : Engine × Reply) : (s.answer a).outputs = s.outputs ++ [⟨s.port, responseFrame a.2⟩] :=
    rfl

@[simp] theorem State.answered_cfg (s : State) (e : Engine) (r : Frame) : (s.answered e r).cfg = s.cfg := rfl
@[simp] theorem State.answered_engines (s : State) (e : Engine) (r : Frame) : (s.answered e r).engines = s.engines.set s.port e :=
    rfl
@[simp] theorem State.answered_port (s : State) (e : Engine) (r : Frame) : (s.answered e r).port = s.port := rfl
@[simp] theorem State.answered_inReset (s : State) (e : Engine) (r : Frame) : (s.answered e r).inReset = s.inReset :=
    rfl
@[simp] theorem State.answered_resets (s : State) (e : Engine) (r : Frame) : (s.answered e r).resets = s.resets :=
    rfl
@[simp] theorem State.answered_inputs (s : State) (e : Engine) (r : Frame) : (s.answered e r).inputs = s.inputs :=
    rfl
@[simp] theorem State.answered_outputs (s : State) (e : Engine) (r : Frame) : (s.answered e r).outputs = s.outputs ++ [⟨s.port, r⟩] :=
    rfl

@[simp] theorem State.accepted_cfg (s : State) (k : Nat) (rest : List HostAction) : (s.accepted k rest).cfg = s.cfg :=
    rfl
@[simp] theorem State.accepted_engines (s : State) (k : Nat) (rest : List HostAction) : (s.accepted k rest).engines = s.engines :=
    rfl
@[simp] theorem State.accepted_port (s : State) (k : Nat) (rest : List HostAction) : (s.accepted k rest).port = k :=
    rfl
@[simp] theorem State.accepted_inReset (s : State) (k : Nat) (rest : List HostAction) : (s.accepted k rest).inReset = s.inReset :=
    rfl
@[simp] theorem State.accepted_resets (s : State) (k : Nat) (rest : List HostAction) : (s.accepted k rest).resets = s.resets :=
    rfl
@[simp] theorem State.accepted_inputs (s : State) (k : Nat) (rest : List HostAction) : (s.accepted k rest).inputs = rest :=
    rfl
@[simp] theorem State.accepted_outputs (s : State) (k : Nat) (rest : List HostAction) : (s.accepted k rest).outputs = s.outputs :=
    rfl

@[simp] theorem State.assertReset_cfg (s : State) : s.assertReset.cfg = s.cfg := rfl
@[simp] theorem State.assertReset_engines (s : State) : s.assertReset.engines = s.engines := rfl
@[simp] theorem State.assertReset_port (s : State) : s.assertReset.port = s.port := rfl
@[simp] theorem State.assertReset_inReset (s : State) : s.assertReset.inReset = true := rfl
@[simp] theorem State.assertReset_resets (s : State) : s.assertReset.resets = s.resets := rfl
@[simp] theorem State.assertReset_inputs (s : State) : s.assertReset.inputs = s.inputs := rfl
@[simp] theorem State.assertReset_outputs (s : State) : s.assertReset.outputs = s.outputs := rfl

@[simp] theorem State.withFetchWord_cfg (s : State) (nbits w : Nat) : (s.withFetchWord nbits w).cfg = s.cfg := rfl
@[simp] theorem State.withFetchWord_engines (s : State) (nbits w : Nat) : (s.withFetchWord nbits w).engines = s.engines :=
    rfl
@[simp] theorem State.withFetchWord_port (s : State) (nbits w : Nat) : (s.withFetchWord nbits w).port = s.port :=
    rfl
@[simp] theorem State.withFetchWord_inReset (s : State) (nbits w : Nat) : (s.withFetchWord nbits w).inReset = false :=
    rfl
@[simp] theorem State.withFetchWord_resets (s : State) (nbits w : Nat) : (s.withFetchWord nbits w).resets = s.resets :=
    rfl
@[simp] theorem State.withFetchWord_inputs (s : State) (nbits w : Nat) : (s.withFetchWord nbits w).inputs = .present 0 (tableFrame nbits w) :: s.inputs :=
    rfl
@[simp] theorem State.withFetchWord_outputs (s : State) (nbits w : Nat) : (s.withFetchWord nbits w).outputs = s.outputs :=
    rfl

/-- The state in which a frame executes is the state with its action taken and its port selected. -/
theorem State.accepted_eq (s : State) (k : Nat) (rest : List HostAction) :
    s.accepted k rest = (s.expect rest).select k := rfl

/-- Sending a reply is `answered` with the reply's response frame. -/
theorem State.answer_eq (s : State) (a : Engine × Reply) :
    s.answer a = s.answered a.1 (responseFrame a.2) := rfl

/-- A reset leaves as many engines as there were. -/
@[simp] theorem resetEngines_length (n k : Nat) (es : List Engine) : (resetEngines n k es).length = es.length := by
  induction es generalizing k with
  | nil => rfl
  | cons e es ih => simp [resetEngines, ih]

/-- Engine `j` after a reset: flags clear, round keys free. -/
theorem resetEngines_getElem? (n k j : Nat) (es : List Engine) :
    (resetEngines n k es)[j]? = (es[j]?).map fun _ =>
      { inited := false, fenc := false, r16 := false
        km := Config.kmAfterReset n (k + j), kr := Config.krAfterReset n (k + j) } := by
  induction es generalizing k j with
  | nil => simp [resetEngines]
  | cons e es ih =>
    cases j with
    | zero => simp [resetEngines]
    | succ j => simp [resetEngines, ih, Nat.add_comm, Nat.add_left_comm]

/-- Releasing an asserted reset. -/
theorem State.releaseReset_of_asserted (s : State) (h : s.inReset = true) :
    s.releaseReset =
      { s with inReset := false, resets := s.resets + 1, engines := resetEngines s.resets 0 s.engines } := by
  simp [State.releaseReset, h]

/-- Releasing a reset that is not asserted. -/
theorem State.releaseReset_of_released (s : State) (h : s.inReset = false) : s.releaseReset = s := by
  simp [State.releaseReset, h]

/-- What a release of reset never touches. -/
theorem State.releaseReset_frame (s : State) :
    s.releaseReset.cfg = s.cfg ∧ s.releaseReset.port = s.port ∧ s.releaseReset.inputs = s.inputs ∧
      s.releaseReset.outputs = s.outputs ∧ s.releaseReset.engines.length = s.engines.length := by
  unfold State.releaseReset
  split <;> simp

end Sys2Proof.Machine
end

