-- ==== Sys2Proof/Laws/Ops.lean ====
section
/-! SUPPORT. One lemma per shared operation that says all it can do. -/

namespace Sys2Proof.Machine

/-- `onPort` answers exactly where the executing port has an engine, and then with the command's result. -/
theorem onPort_of_some {c : Command} {s : State} {e : Engine} (h : s.engines[s.port]? = some e) :
    onPort c s = .next (s.answered (c s.cfg e).1 (responseFrame (c s.cfg e).2)) := by
  simp [onPort, h, State.answer_eq]

/-- Without such a port it stops. -/
theorem onPort_of_none {c : Command} {s : State} (h : s.engines[s.port]? = none) :
    onPort c s = .fault .noSuchPort := by
  simp [onPort, h]

/-- Everything `onPort` can do. -/
theorem onPort_cases (c : Command) (s : State) :
    (∃ e, s.engines[s.port]? = some e ∧
      onPort c s = .next (s.answered (c s.cfg e).1 (responseFrame (c s.cfg e).2))) ∨
    (s.engines.length ≤ s.port ∧ onPort c s = .fault .noSuchPort) := by
  cases h : s.engines[s.port]? with
  | some e => exact .inl ⟨e, rfl, onPort_of_some h⟩
  | none => exact .inr ⟨List.getElem?_eq_none_iff.mp h, onPort_of_none h⟩

/-- A reject leaves the engine and has no payload. -/
@[simp] theorem reject_engine (e : Engine) (st : Status) : (reject e st).1 = e := rfl

@[simp] theorem reject_reply (e : Engine) (st : Status) : (reject e st).2 = ⟨st, []⟩ := rfl

@[simp] theorem respond_engine (e : Engine) (p : List Byte) : (respond e p).1 = e := rfl

@[simp] theorem respond_reply (e : Engine) (p : List Byte) : (respond e p).2 = ⟨.ok, p⟩ := rfl

/-- The response frame of a reject: the status code and a length of zero. -/
@[simp] theorem responseFrame_reject (st : Status) : responseFrame ⟨st, []⟩ = [statusCode st, 0, 0] := by
  simp [responseFrame, bytesOf16, count16]

/-- Byte 0 of a response is the status code. -/
@[simp] theorem responseFrame_head (r : Reply) : (responseFrame r).head? = some (statusCode r.status) := rfl

/-- The response frame of a success. -/
theorem responseFrame_ok (p : List Byte) :
    responseFrame ⟨.ok, p⟩ =
      0 :: BitVec.ofNat 8 (p.length % 256) :: BitVec.ofNat 8 (p.length / 256) :: p := by
  have h1 : (count16 p.length).setWidth 8 = BitVec.ofNat 8 (p.length % 256) := by
    apply BitVec.eq_of_toNat_eq
    simp [count16]
  have h2 : ((count16 p.length) >>> 8).setWidth 8 = BitVec.ofNat 8 (p.length / 256) := by
    apply BitVec.eq_of_toNat_eq
    simp [count16, Nat.shiftRight_eq_div_pow]
    omega
  simp [responseFrame, statusCode, bytesOf16, h1, h2]

/-- With tables, a read gives the entry. -/
theorem tableRead_some (S : Tables) (t : Fin 8) (b : Byte) : tableRead (some S) t b = S[t.val][b.toNat]'b.isLt := rfl

/-- The four bytes of a word make the word. -/
theorem be32_bytes (w : Word) : be32 (byte0 w) (byte1 w) (byte2 w) (byte3 w) = w := by
  apply BitVec.eq_of_getLsbD_eq
  intro i hi
  simp only [be32, byte0, byte1, byte2, byte3, BitVec.getLsbD_append, BitVec.getLsbD_extractLsb']
  interval_cases i <;> simp

/-- Storing a word in a working array and reading it back. -/
@[simp] theorem wordAt_putWord_self (a : Array16) (i : Fin 4) (w : Word) : wordAt (putWord a i w) i = w := by
  simp [wordAt, putWord, be32_bytes]

/-- A word joined with a byte below it, as a sum. -/
theorem append_byte_toNat {n : Nat} (a : BitVec n) (b : Byte) : (a ++ b).toNat = a.toNat * 256 + b.toNat := by
  have h := b.isLt
  simp only [BitVec.toNat_append]
  rw [Nat.shiftLeft_eq, Nat.mul_comm a.toNat, ← Nat.two_pow_add_eq_or_of_lt h]

/-- Storing one word leaves the bytes of the others. -/
theorem putWord_getElem_ne (a : Array16) (i : Fin 4) (w : Word) (j : Nat) (hj : j < 16) (h : j / 4 ≠ i.val) :
    (putWord a i w)[j] = a[j] := by
  have h0 : 4 * i.val ≠ j := by omega
  have h1 : 4 * i.val + 1 ≠ j := by omega
  have h2 : 4 * i.val + 2 ≠ j := by omega
  have h3 : 4 * i.val + 3 ≠ j := by omega
  simp [putWord, h0, h1, h2, h3]

/-- Storing one word leaves the other words. -/
theorem wordAt_putWord_ne (a : Array16) (i j : Fin 4) (w : Word) (h : j ≠ i) :
    wordAt (putWord a i w) j = wordAt a j := by
  have h' : j.val ≠ i.val := fun hh => h (Fin.ext hh)
  unfold wordAt
  rw [putWord_getElem_ne _ _ _ _ _ (by omega), putWord_getElem_ne _ _ _ _ _ (by omega),
    putWord_getElem_ne _ _ _ _ _ (by omega), putWord_getElem_ne _ _ _ _ _ (by omega)]

/-- A byte string has halves exactly when it has 8 bytes. -/
theorem splitBlock_none_iff (data : List Byte) : splitBlock data = none ↔ data.length ≠ 8 := by
  constructor
  · intro h hl
    match data, hl with
    | [_, _, _, _, _, _, _, _], _ => simp [splitBlock] at h
  · intro h
    unfold splitBlock
    split
    · exact absurd rfl h
    · rfl

/-- `strip` keeps every other byte, in order, and none of the stripped ones. -/
theorem strip_spec (s : List Byte) (v : Byte) :
    (strip s v).Sublist s ∧ v ∉ strip s v ∧ (∀ x, x ≠ v → (strip s v).count x = s.count x) ∧
      (strip s v).length = s.length - s.count v := by
  refine ⟨List.filter_sublist, by simp [strip], fun x hx => by simp [strip, hx], ?_⟩
  induction s with
  | nil => rfl
  | cons a s ih =>
    have hle : s.count v ≤ s.length := List.count_le_length
    by_cases h : a = v
    · subst h; simpa [strip] using ih
    · simp [strip, h] at ih ⊢
      omega

/-- Stripping lengthens nothing. -/
theorem strip_length_le (s : List Byte) (v : Byte) : (strip s v).length ≤ s.length := List.length_filter_le _ _

/-- The field ciphers process at most the cap, the declared length and the buffer. -/
theorem processed_le (dlen alen cap : Nat) :
    processed dlen alen cap ≤ dlen ∧ processed dlen alen cap ≤ alen ∧ processed dlen alen cap ≤ cap := by
  simp only [processed]
  omega

/-- The password cipher before stripping, byte by byte. -/
theorem passwordBytes_length (a b : FieldKey) (i : Nat) (buf : List Byte) :
    (passwordBytes a b i buf).length = buf.length := by
  induction buf generalizing i with
  | nil => rfl
  | cons x buf ih => simp [passwordBytes, ih]

theorem passwordBytes_getElem? (a b : FieldKey) (i j : Nat) (buf : List Byte) :
    (passwordBytes a b i buf)[j]? = (buf[j]?).map fun x =>
      x ^^^ a[(indexA (i + j)).val]'(indexA (i + j)).isLt ^^^ b[(indexB (i + j)).val]'(indexB (i + j)).isLt := by
  induction buf generalizing i j with
  | nil => simp [passwordBytes]
  | cons x buf ih =>
    cases j with
    | zero => simp [passwordBytes]
    | succ j => simp [passwordBytes, ih, Nat.add_comm, Nat.add_left_comm]

/-- The serial cipher before stripping, byte by byte. -/
@[simp] theorem serialBytes_length (bs : List Byte) : (serialBytes bs).length = bs.length := List.length_map _

theorem serialBytes_getElem? (bs : List Byte) (j : Nat) :
    (serialBytes bs)[j]? = (bs[j]?).map fun x => x + serialOffset := List.getElem?_map

/-- The four words of a working array, as their bytes (R32). -/
theorem wordAt_bytes (a : Array16) :
    wordAt a 0 = be32 a[0] a[1] a[2] a[3] ∧ wordAt a 1 = be32 a[4] a[5] a[6] a[7] ∧
      wordAt a 2 = be32 a[8] a[9] a[10] a[11] ∧ wordAt a 3 = be32 a[12] a[13] a[14] a[15] :=
  ⟨rfl, rfl, rfl, rfl⟩

/-- The sixteen schedule words of four stages, in order (R63). -/
theorem gather_toList (a b c d : Words4) :
    (gather a b c d).toList =
      [a.w0, a.w1, a.w2, a.w3, b.w0, b.w1, b.w2, b.w3, c.w0, c.w1, c.w2, c.w3, d.w0, d.w1, d.w2, d.w3] := rfl

/-- Rounds of a joined order run one part after the other. -/
theorem feistelRounds_append (f : Fin 16 → Word → Word) (o o' : List (Fin 16)) (p : Word × Word) :
    feistelRounds f (o ++ o') p = feistelRounds f o' (feistelRounds f o p) := by
  simp [feistelRounds]

/-- One round, and again with the halves exchanged, gives the exchanged start. -/
theorem feistelRound_undo (f : Fin 16 → Word → Word) (r : Fin 16) (p : Word × Word) :
    feistelRound f (feistelRound f p r).swap r = p.swap := by
  simp [feistelRound, Prod.swap]

end Sys2Proof.Machine
end

