-- ==== Sys2Proof/Laws/PerInstr.lean ====
section
/-! SUPPORT. One lemma per command, for the families of statements about every instruction that LAWS.json names. -/

namespace Sys2Proof.Laws

/-- The frame of a well-formed command has at least its opcode, and at most 65540 bytes (R40). -/
def FrameLength.Statement (i : Instr) : Prop := i.wf = true → 1 ≤ (encode i).length ∧ (encode i).length ≤ 65540

theorem FrameLength.init (fe : Bool) (key : List Byte) : FrameLength.Statement (.init fe key) := by
  intro h
  rw [Instr.wf_init] at h
  simp only [encode, List.length_cons]
  omega

theorem FrameLength.enc (data : List Byte) : FrameLength.Statement (.enc data) := by
  intro h
  rw [Instr.wf_enc] at h
  simp only [encode, List.length_cons]
  omega

theorem FrameLength.dec (data : List Byte) : FrameLength.Statement (.dec data) := by
  intro h
  rw [Instr.wf_dec] at h
  simp only [encode, List.length_cons]
  omega

theorem FrameLength.pwdec (dlen : Byte) (buf : List Byte) : FrameLength.Statement (.pwdec dlen buf) := by
  intro h
  rw [Instr.wf_pwdec] at h
  simp only [encode, List.length_cons]
  omega

theorem FrameLength.serdec (dlen : Half) (buf : List Byte) : FrameLength.Statement (.serdec dlen buf) := by
  intro h
  rw [Instr.wf_serdec] at h
  simp only [encode, List.length_cons, List.length_append, bytesOf16_length]
  omega

theorem FrameLength.stat : FrameLength.Statement .stat := by
  intro _
  simp [encode]

end Sys2Proof.Laws
end

