-- ==== Sys2Proof/Laws/Step.lean ====
section
/-! SUPPORT. What `exec` and `step` can do, said once. -/

namespace Sys2Proof.Machine

/-- Every command, as what it makes of its engine. -/
def commandOf : Instr → Command
  | .init fe key => initCommand fe key
  | .enc data => blockCommand forwardOrder data
  | .dec data => blockCommand backwardOrder data
  | .pwdec dlen buf => pwdecCommand dlen buf
  | .serdec dlen buf => serdecCommand dlen buf
  | .stat => statCommand

/-- `exec` runs the command on the executing port. -/
theorem exec_eq (i : Instr) (s : State) : exec i s = onPort (commandOf i) s := by
  cases i <;> rfl

/-- The command a frame stands for: its own, or its rejection. -/
def frameCommand (f : Frame) : Command :=
  match decode f with
  | .command i => commandOf i
  | .rejected err => rejectFrame err

/-- A frame runs as one command on its port. -/
theorem execFrame_eq (f : Frame) (s : State) : execFrame f s = onPort (frameCommand f) s := by
  unfold execFrame frameCommand
  cases decode f with
  | command i => exact exec_eq i s
  | rejected err => rfl

/-- Where the executing port has an engine, a command answers. -/
theorem exec_of_some {s : State} {e : Engine} (i : Instr) (h : s.engines[s.port]? = some e) :
    exec i s = .next (s.answered (commandOf i s.cfg e).1 (responseFrame (commandOf i s.cfg e).2)) := by
  rw [exec_eq, onPort_of_some h]

/-- A command that answers had an engine to run on. -/
theorem exec_next {i : Instr} {s t : State} (h : exec i s = .next t) :
    ∃ e, s.engines[s.port]? = some e ∧
      t = s.answered (commandOf i s.cfg e).1 (responseFrame (commandOf i s.cfg e).2) := by
  rw [exec_eq] at h
  obtain ⟨e, he, h'⟩ | ⟨_, h'⟩ := onPort_cases (commandOf i) s
  · exact ⟨e, he, by simpa [h'] using h.symm⟩
  · simp [h'] at h

/-- A step with nothing to come. -/
theorem step_wait {s : State} (h : s.inputs = []) : step s = .next s := by
  simp [step, nextAction, h]

/-- A step that executes a frame on a port with an engine. -/
theorem step_accepts {s : State} {k : Nat} {f : Frame} {rest : List HostAction} {e : Engine}
    (h : s.Accepts k f rest e) :
    step s = .next ((s.accepted k rest).answered (frameCommand f s.cfg e).1
      (responseFrame (frameCommand f s.cfg e).2)) := by
  obtain ⟨hi, hr, he⟩ := h
  have : ((s.expect rest).select k).engines[((s.expect rest).select k).port]? = some e := by simpa using he
  simp [step, nextAction, hi, hostAction, presentFrame, hr, execFrame_eq, onPort_of_some this, State.accepted_eq]

/-- A step that takes a frame while reset is asserted. -/
theorem step_inReset {s : State} {k : Nat} {f : Frame} {rest : List HostAction}
    (hi : s.inputs = .present k f :: rest) (hr : s.inReset = true) : step s = .next (s.expect rest) := by
  simp [step, nextAction, hi, hostAction, presentFrame, hr]

/-- A step that asserts reset. -/
theorem step_assertReset {s : State} {l : List (Nat × Frame)} {rest : List HostAction}
    (hi : s.inputs = .assertReset l :: rest) : step s = .next (s.expect rest).assertReset := by
  simp [step, nextAction, hi, hostAction]

/-- A step that releases reset. -/
theorem step_releaseReset {s : State} {rest : List HostAction}
    (hi : s.inputs = .releaseReset :: rest) : step s = .next (s.expect rest).releaseReset := by
  simp [step, nextAction, hi, hostAction]

/-- A step that takes a frame for a port the block does not have. -/
theorem step_noSuchPort {s : State} {k : Nat} {f : Frame} {rest : List HostAction}
    (hi : s.inputs = .present k f :: rest) (hr : s.inReset = false) (hk : s.engines.length ≤ k) :
    step s = .fault .noSuchPort := by
  have : ((s.expect rest).select k).engines[((s.expect rest).select k).port]? = none := by simpa using hk
  simp [step, nextAction, hi, hostAction, presentFrame, hr, execFrame_eq, onPort_of_none this]

/-- Everything a step can do. -/
theorem step_cases (s : State) :
    (s.inputs = [] ∧ step s = .next s) ∨
    (∃ k f rest e, s.Accepts k f rest e ∧ step s = .next ((s.accepted k rest).answered
      (frameCommand f s.cfg e).1 (responseFrame (frameCommand f s.cfg e).2))) ∨
    (∃ k f rest, s.inputs = .present k f :: rest ∧ s.inReset = true ∧ step s = .next (s.expect rest)) ∨
    (∃ l rest, s.inputs = .assertReset l :: rest ∧ step s = .next (s.expect rest).assertReset) ∨
    (∃ rest, s.inputs = .releaseReset :: rest ∧ step s = .next (s.expect rest).releaseReset) ∨
    (∃ k f rest, s.inputs = .present k f :: rest ∧ s.inReset = false ∧ s.engines.length ≤ k ∧
      step s = .fault .noSuchPort) := by
  match hi : s.inputs with
  | [] => exact .inl ⟨rfl, step_wait hi⟩
  | .assertReset l :: rest => exact .inr (.inr (.inr (.inl ⟨l, rest, rfl, step_assertReset hi⟩)))
  | .releaseReset :: rest => exact .inr (.inr (.inr (.inr (.inl ⟨rest, rfl, step_releaseReset hi⟩))))
  | .present k f :: rest =>
    cases hr : s.inReset with
    | true => exact .inr (.inr (.inl ⟨k, f, rest, rfl, rfl, step_inReset hi hr⟩))
    | false =>
      cases he : s.engines[k]? with
      | some e => exact .inr (.inl ⟨k, f, rest, e, ⟨hi, hr, he⟩, step_accepts ⟨hi, hr, he⟩⟩)
      | none =>
        have hk := List.getElem?_eq_none_iff.mp he
        exact .inr (.inr (.inr (.inr (.inr ⟨k, f, rest, rfl, rfl, hk, step_noSuchPort hi hr hk⟩))))

/-- A run takes its first step, and goes on from what that answers. -/
theorem run_succ_of_next {s t : State} (n : Nat) (h : step s = .next t) :
    Host.Core.run Sys2Proof.core (n + 1) s = Host.Core.run Sys2Proof.core n t := by
  have h' : Sys2Proof.core.step s = .next t := h
  refine (Host.Core.run.eq_2 Sys2Proof.core s n).trans ?_
  rw [h']

/-- A run that answers took a first step. -/
theorem run_succ_next {s t : State} {n : Nat} (h : Host.Core.run Sys2Proof.core (n + 1) s = .next t) :
    ∃ u, step s = .next u ∧ Host.Core.run Sys2Proof.core n u = .next t := by
  have h' := (Host.Core.run.eq_2 Sys2Proof.core s n).symm.trans h
  obtain ⟨u, hu⟩ : ∃ u, step s = .next u := by
    rcases step_cases s with ⟨_, hs⟩ | ⟨_, _, _, _, _, hs⟩ | ⟨_, _, _, _, _, hs⟩ | ⟨_, _, _, hs⟩ | ⟨_, _, hs⟩ |
      ⟨_, _, _, _, _, _, hs⟩
    any_goals exact ⟨_, hs⟩
    rw [show Sys2Proof.core.step s = .fault .noSuchPort from hs] at h'
    exact absurd h' (by simp)
  exact ⟨u, hu, (run_succ_of_next n hu).symm.trans h⟩

/-- Writing back the engine that is there changes nothing. -/
theorem engines_set_self {l : List Engine} {k : Nat} {e : Engine} (h : l[k]? = some e) : l.set k e = l := by
  obtain ⟨hk, rfl⟩ := List.getElem?_eq_some_iff.mp h
  exact List.set_getElem_self hk

/-- A command leaves its engine as it was, or is an `INIT` that its tests let through. -/
theorem commandOf_engine (i : Instr) (cfg : Params) (e : Engine) :
    (commandOf i cfg e).1 = e ∨
      ∃ fe key, i = .init fe key ∧ initReject cfg e key = none ∧
        commandOf i cfg e = respond (initEngine cfg fe key) [] := by
  cases i with
  | init fe key =>
    cases h : initReject cfg e key with
    | some st => left; simp [commandOf, initCommand, h]
    | none => right; exact ⟨fe, key, rfl, h, by simp [commandOf, initCommand, h]⟩
  | enc data => left; simp only [commandOf, blockCommand]; split <;> [rfl; split <;> rfl]
  | dec data => left; simp only [commandOf, blockCommand]; split <;> [rfl; split <;> rfl]
  | pwdec dlen buf => left; rfl
  | serdec dlen buf => left; rfl
  | stat => left; rfl

/-- A command that does not answer `OK` answers with no payload and leaves its engine. -/
theorem commandOf_reject (i : Instr) (cfg : Params) (e : Engine) :
    (commandOf i cfg e).2.status = .ok ∨ ∃ st, commandOf i cfg e = reject e st := by
  cases i with
  | init fe key =>
    cases h : initReject cfg e key with
    | some st => exact .inr ⟨st, by simp [commandOf, initCommand, h]⟩
    | none => left; simp [commandOf, initCommand, h]
  | enc data =>
    simp only [commandOf, blockCommand]
    split
    · exact .inr ⟨_, rfl⟩
    · split
      · exact .inr ⟨_, rfl⟩
      · exact .inl rfl
  | dec data =>
    simp only [commandOf, blockCommand]
    split
    · exact .inr ⟨_, rfl⟩
    · split
      · exact .inr ⟨_, rfl⟩
      · exact .inl rfl
  | pwdec dlen buf => exact .inl rfl
  | serdec dlen buf => exact .inl rfl
  | stat => exact .inl rfl

/-- The same of every frame. -/
theorem frameCommand_reject (f : Frame) (cfg : Params) (e : Engine) :
    (frameCommand f cfg e).2.status = .ok ∨ ∃ st, frameCommand f cfg e = reject e st := by
  unfold frameCommand
  cases decode f with
  | command i => exact commandOf_reject i cfg e
  | rejected err => exact .inr ⟨frameStatus err, rfl⟩

/-- A frame leaves its engine as it was, or is an `INIT` that its tests let through. -/
theorem frameCommand_engine (f : Frame) (cfg : Params) (e : Engine) :
    (frameCommand f cfg e).1 = e ∨
      ∃ fe key, decode f = .command (.init fe key) ∧ initReject cfg e key = none ∧
        frameCommand f cfg e = respond (initEngine cfg fe key) [] := by
  unfold frameCommand
  cases hd : decode f with
  | command i =>
    obtain h | ⟨fe, key, rfl, hn, h⟩ := commandOf_engine i cfg e
    · exact .inl h
    · exact .inr ⟨fe, key, rfl, hn, h⟩
  | rejected err => exact .inl rfl

/-- The tests of `INIT` let it through exactly under these conditions. -/
theorem initReject_none_iff (cfg : Params) (e : Engine) (key : List Byte) :
    initReject cfg e key = none ↔
      cfg.sbox ≠ none ∧ 1 ≤ key.length ∧ key.length ≤ 16 ∧ (e.inited = true → cfg.reinit = .rederive) := by
  have hs : cfg.tblOk = false ↔ cfg.sbox = none := by simp [Params.tblOk]
  have hr : cfg.reinit = .rederive ↔ ¬ cfg.reinit = .reject := by cases cfg.reinit <;> simp
  unfold initReject maxKey
  rw [hr]
  split
  · simp_all
  · split
    · simp only [reduceCtorEq, false_iff]; omega
    · split
      · simp_all
      · simp only [true_iff]
        refine ⟨by simp_all, by omega, by omega, by simp_all⟩

end Sys2Proof.Machine
end

