-- ==== Sys2Proof/Machine/Text.lean ====
section
/-! DEFINITION. The textual syntax of `spec/30_encoding.md` section 5 (R52). No step reads it. -/

namespace Sys2Proof.Machine

/-- One hexadecimal digit. -/
def hexDigit (n : Nat) : Char := "0123456789ABCDEF".toList.getD n '0'

/-- A byte as two hexadecimal digits. -/
def hexByte (b : Byte) : List Char := [hexDigit (b.toNat / 16), hexDigit (b.toNat % 16)]

/-- A byte string in hexadecimal without separators, an empty one as `-` (R52). -/
def hexText (bs : List Byte) : String :=
  if bs.isEmpty then "-" else String.ofList (bs.flatMap hexByte)

/-- One command as a line: the mnemonic, then the operands as `name=value` (R52). -/
def instrText : Instr → String
  | .init fe key => "INIT fe=" ++ (if fe then "1" else "0") ++ " key=" ++ hexText key
  | .enc data => "ENC data=" ++ hexText data
  | .dec data => "DEC data=" ++ hexText data
  | .pwdec dlen buf => "PWDEC dlen=" ++ toString dlen.toNat ++ " buf=" ++ hexText buf
  | .serdec dlen buf => "SERDEC dlen=" ++ toString dlen.toNat ++ " buf=" ++ hexText buf
  | .stat => "STAT"

/-- A request frame as a line: its command, or its raw bytes where it is none (R52; log 17). -/
def frameText (f : Frame) : String :=
  match decode f with
  | .command i => instrText i
  | .rejected _ => "RAW " ++ hexText f

/-- The name of a status (R93). -/
def statusName : Status → String
  | .ok => "OK"
  | .eIllegal => "E_ILLEGAL"
  | .eFrame => "E_FRAME"
  | .eNoTables => "E_NOTABLES"
  | .eKeyLen => "E_KEYLEN"
  | .eNotInit => "E_NOTINIT"
  | .eBlockLen => "E_BLOCKLEN"
  | .eReinit => "E_REINIT"

/-- A reply as a line: `-> OK payload` or `-> E_NAME` (R52). -/
def replyText (r : Reply) : String :=
  "-> " ++ statusName r.status ++ (if r.status = .ok then " " ++ hexText r.payload else "")

end Sys2Proof.Machine
end

