-- ==== Sys2Proof/Tests/Tables.lean ====
section
/-! SUPPORT. Tables and keys for the tests: the synthetic tables and the test keys of `spec/95_test_vectors.md`, the
all-zero tables, and the candidate tables of `spec/97_candidate_tables.md`, which are not normative. -/

namespace Sys2Proof.Tests

/-- A table from its entries by index. -/
def tableOf (f : Nat → Word) : Vector Word 256 := ⟨⟨(List.range 256).map f⟩, by simp⟩

/-- Eight tables from their entries by table and index. -/
def tablesOf (f : Nat → Nat → Word) : Tables := ⟨⟨(List.range 8).map fun t => tableOf (f t)⟩, by simp⟩

/-- `SBOX_T` (`spec/95_test_vectors.md` section 3). -/
def sboxT : Tables := tablesOf fun t b => BitVec.ofNat 32 ((256 * t + b + 1) * 0x9E3779B1)

/-- `SBOX_ZERO` (`spec/95_test_vectors.md` section 3.5). -/
def sboxZero : Tables := Vector.replicate 8 (Vector.replicate 256 0)

/-- `PWKEY_A_T` (`spec/95_test_vectors.md` section 5). -/
def keyA : FieldKey := ⟨⟨(List.range 32).map fun j => BitVec.ofNat 8 (0x10 + j)⟩, by simp⟩

/-- `PWKEY_B_T` (`spec/95_test_vectors.md` section 5). -/
def keyB : FieldKey := ⟨⟨(List.range 32).map fun j => BitVec.ofNat 8 (0xFF - j)⟩, by simp⟩

/-- A password key of zeros. -/
def keyZero : FieldKey := Vector.replicate 32 0

/-- Table 0 of the candidate: 32 entries a literal, first entry most significant. -/
def std0 : List Nat :=
  [0x30FB40D49FA0FF0B6BECCD2F3F258C7A1E213F2F9C004DD36003E540CF9FC949BFD4AF2788BBBDB5E203409098D096756E63A0E015C361D2C2E7661D22D4FF8E28683B6FC07FD059FF2379C8775F50E243C340D3DF2F8656887CA41AA2D2BD2DA1C9E0D6346C481961B76D8722540F2F2ABE32E1AA54166B22568E3AA2D341D0,
   0x66DB40C8A784392F004DFF2F2DB9D2DE97943FAC4A97C1D8527644B7B5F437A7B82CBAEFD751D1596FF7F0ED5A097A1F827B68D090ECF52E22B0C054BC8E59354B6D2F7F50BB64A2D2664910BEE5812DB7332290E93B159FB48EE4114BFF345DFD45C240AD31973FC4F6D02E55FC8165D5B1CAADA1AC2DAEA2D4B76DC19B0C50,
   0x882240F20C6E4F38A4E4BFD74F5BA272564C1D2FC59C5319B949E354B04669FEB1B6AB8AC71358DD6385C545110F935D57538AD56A390493E63D37E02A54F6B33A787D5F6276A0B519A6FCDF7A42206A29F9D4D5F61B1891BB72275EAA50816738901091C6B505EB84C7CB8C2AD75A0F874A1427A2D1936B2AD286AFAA56D291,
   0xD7894360425C750D93B39E26187184C96C00B32D73E2BB14A0BEBC3C5462377964459EAB3F328B827718CF8259A2CEA604EE002E89FE78E63FAB0950325FF6C281383F056963C5C876CB5AD6D49974C9CA180DCF380782D5C7FA5CF68AC3151135E79E1347DA91D0F40F9086A7E2419E31366241051EF495AA573B044A805D8D,
   0x548300D000322A3CBF64CDDFBA57A68E75C6372B50AFD341A7C13275915A0BF56B54BFAB2B0B1426AB4CC9D7449CCD82F7FBF265AB85C5F31B55DB94AAD4E324CFA4BD3F2DEAA3E29E204D02C8BD25ACEADF55B3D5BD9E98E31231B22AD5AD6C954329DEADBE4528D8710F69AA51C90FAA786BF622513F1EAA51A79B2AD344CC,
   0x7B5A41F0D37CFBAD1B06950541ECE491B4C332E6032268D4C9600ACCCE387E6DBF6BB16C6A70FB780D03D9C9D4DF39DEE01063DA4736F4645AD328D8B347CC9675BB0FC398511BFB4FFBCC35B58BCF6AE11F0ABCBFC5FE4AA70AEC10AC39570A3F04442F6188B153E0397A2E5727CB799CEB418F1CACD68D2AD37C960175CB9D,
   0xC69DFF09C75B65F0D9DB40D8EC0E77794744EAD4B11C3274DD24CB9E7E1C54BDF01144F9D2240EB19675B3FDA3AC3755D47C27AF51C85F4D56907596A5BB15E6580304F0CA042CF1011A37EA8DBFAADB35BA3E4A3526FFA0C37B4D09BC306ED998A526665648F725FF5E569D0CED63D07C63B2CF700B45E1D5EA50F185A92872,
   0xAF1FBDA7D4234870A7870BF32D3B4D7942E041980CD0EDE726470DB8F881814C474D6AD77C0C5E5CD1231959381B7298F5D2F4DBAB8386536E2F1E2383719C9EBD91E0469A56456EDC39200C20C8C571962BDA1CE1E696FFB141AB087CCA89B91A69E78302CC4843A2F7C579429EF47D427B169C5AC9F049DD8F0F005C8165BF]

/-- Table 1 of the candidate: 32 entries a literal, first entry most significant. -/
def std1 : List Nat :=
  [0x1F201094EF0BA75B69E3CF7E393F4380FE61CF7AEEC5207A55889C9472FC0651ADA7EF794E1D7235D55A63CEDE0436BA99C430EF5F0C079418DCDB7DA1D6EFF3A0B52F7B59E83605EE15B094E9FFD909DC440086EF944459BA83CCB3E0C3CDFBD1DA41813B092AB1F997F1C1A5E6CF7B01420DDBE4E7EF5B25A1FF41E180F806,
   0x1FC41080179BEE7AD37AC6A9FE5830A498DE8B7F77E83F4E7992926924FA9F7BE113C85BACC40083D7503525F7EA615F621431540D554B635D681121C866C3593D63CF73CEE234C0D4D87E875C672B21071F618139F7627F361E3084E4EB573B602F64A4D63ACD9C1BBC46359E81032D2701F50C99847AB4A0E3DF79BA6CF38C,
   0x108430942537A95EF46F6FFEA1FF3B1F208CFB6A8F458C74D9E0A2274EC73A34FC884F693E4DE8DFEF0E00883559648D8A45388C1D804366721D9BFDA58684BBE8256333844E8212128D8098FED33FB4CE280AE127E19BA5D5A6C252E49754BDC5D655DDEB66706477840B4DA1B6A80184DB26A9E0B5671421F043B7E5D05860,
   0x54F03084066FF472A31AA153DADC4755B5625DBF68561BE683CA6B942D6ED23BECCF01DBA6D3D0BAB6803D5CAF77A70933B4A34C397BC8D65EE22B955F0E530481ED6F6120E74364B45E1378DE18639B881CA122B96726D18049A7E822B7DA7B5E552D255272D23779D2951CC60D894C488CB4021BA4FE5BA4B09F6B1CA815CF,
   0xA20C30058871DF63B9DE2FCB0CC6C9E90BEEFF53E3214517B45428359F63293CEE41E7296E1D2D7C500452861E6685F3F33401C630A22C9531A7085060930F1373F98417A1269859EC645C4452C877A9CDFF33A6A02B17417CBAD9A22180036F50D99C08CB3F4861C26BD76564A3F6AB8034267625A75E7BE4E6D1FC20C710E6,
   0xCDF0B68017844D3B31EEF84D7E0824E42CCB49EB846A3BAE8FF77888EE5D60F67AF756732FDD5CDBA11631C130F66F43B3FAEC54157FD7FAEF8579CCD152DE58DB2FFD5E8F32CE19306AF97A02F03EF899319AD5C242FA0FA7E3EBB0C68E4906B8DA230C80823028DCDEF3C8D35FB171088A1BC8BEC0C56061A3C9E8BCA8F54D,
   0xC72FEFFA22822E9982C570B4D8D94E898B1C34BC301E16E6273BE979B0FFEAA661D9B8C600B24869B7FFCE3F08DC283B43DAF65AF7E197987619B72F8F1C9BA4DC8637A016A7D3B19FC393B7A7136EEBC6BCC63E1A513742EF6828BC520365D62D6A77AB3527ED4B821FD216095C6E2EDB92F2FB5EEA29CB145892F591584F7F,
   0x5483697B2667A8CC851960488C4BACEA833860D40D23E0F96C387E8A0AE6D249B284600CD835731DDCB1C647AC4C56EA3EBD81B3230EABB06438BC87F0B5B1FA8F5EA2B3FC1846420A036B7A4FB089BD649DA589A345415E5C0383233E5D3BB943D795727E6DD07C06DFDF1E6C6CC4EF7160A53973BFBE70838776054523ECF1]

/-- Table 2 of the candidate: 32 entries a literal, first entry most significant. -/
def std2 : List Nat :=
  [0x8DEFC24025FA5D9FEB903DBFE810C90747607FFF369FE44B8C1FC644AECECA90BEB1F9BFEEFBCAEAE8CF195051DF07AE920E8806F0AD0548E13C8D83927010D511107D9F07647DB9B2E3E4D43D4F285EB9AFA820FADE82E0A067268B8272792E553FB2C0489AE22BD4EF9794125E3FBC21FFFCEE825B1BFD9255C5ED1257A240,
   0x4E1A8302BAE07FFF528246E78E57140E3373F7BF8C9F8188A6FC4EE8C982B5A5A8C01DB7579FC26467094F31F2BD3F5F40FFF7C11FB78DFC8E6BD2C1437BE59B99B03DBFB5DBC64B638DC0E655819D99A197C81C4A012D6EC5884A28CCC36F71B843C2136C0743F18309893C0FEDDD5F2F7FE850D7C07F7E02507FBF5AFB9A04,
   0xA747D2D01651192EAF70BF3E58C313805F98302E727CC3C40A0FB4020F7FEF828C96FDAD5D2C2AAE8EE99A4950DA88B88427F4A01EAC5790796FB4498252DC15EFBD7D9BA672597DADA840D845F54504FA5D7403E83EC3054F91751A925669C223EFE941A903F12E60270DF20276E4B694FD6574927985B28276DBCB02778176,
   0xF8AF918D4E48F79E8F616DDFE29D840E842F7D83340CE5C896BBB68293B4B148EF303CAB984FAF28779FAF9B92DC560D224D1E208437AA887D29DC962756D3DC8B907CEEB51FD240E7C07CE3E566B4A1C3E9615E3CF8209D6094D1E3CD9CA3415C76460E00EA983BD4D67881FD47572CF76CEDD9BDA8229C127DADAA438A074E,
   0x1F97C090081BDB8A93A07EBEB938CA1597B03CFF3DC2C0F88D1AB2EC64380E5168CC7BFBD90F2788124901815DE5FFD4DD7EF86A76A2E214B9A40368925D958F4B39FFFABA39AEE9A4FFD30BFAF7933B6D498623193CBCFA27627545825CF47A61BD8BA0D11E42D1CEAD04F4127EA39210428DB78272A9729270C4A8127DE50B,
   0x285BA1C83C62F44F35C0EAA5E805D231428929FBB4FCDF824FB66A530E7DC15B1F081FAB108618AEFCFD086DF9FF2889694BCC11236A5CAE12DECA4D2C3F8CC5D2D02DFEF8EF5896E4CF52DA95155B67494A488CB9B6A80C5C8F82BC89D36B453A609437EC00C9A9447152530A874B49D773BC407C34671C02717EF64FEB5536,
   0xA2D02FFFD2BF60C4D43F03C050B4EF6D07478CD1006E1888A2E53F55B9E6D4BCA204801697573833D7207D67DE0F8F3D72F87B33ABCC4F337688C55D7B00A6B0947B0001570075D2F9BB88F88942019E4264A5FF856302E072DBD92BEE971B696EA22FDE5F08AE2BAF7A616DE5C98767CF1FEBD261EFC8C2F1AC2571CC8239C2,
   0x67214CB8B1E583D1B7DC3E627F10BDCEF90A5C380FF0443D606E6DC660543A495727C1482BE98A1D8AB4173820E1BE24AF96DA0F6845842599833BE5600D457D282F93508334B362D91D11202B6D8DA0642B1E319C305A0052BCE6881B03588AF7BAEFD54142ED9CA4315C1183323EC5DFEF4636A133C501E9D3531CEE353783]

/-- Table 3 of the candidate: 32 entries a literal, first entry most significant. -/
def std3 : List Nat :=
  [0x9DB304201FB6E9DEA7BE7BEFD273A2984A4F7BDB64AD8C5785510443FA020ED17E287AFFE60FB663095F35A179EBF120FD059D436497B7B1F3641F63241E4ADF28147F5F4FA2B8CDC94300400CC32220FDD30B30C0A5374F1D2D00D924147B15EE4D111A0FCA516771FF904C2D195FFE1A05645F0C13FEFE081B08CA05170121,
   0x80530100E83E5EFEAC9AF4F87FE72701D2B8EE5F06DF4261BB9E9B8A7293EA25CE84FFDFF57188013DD64B04A26F263B7ED48400547EEBE6446D4CA06CF3D6F52649ABDFAEA0C7F536338CC1503F7E93D377206111B638E172500E03F80EB2BBABE0502EEC8D77DE57971E81E14F6746C93354006920318F081DBB99FFC304A5,
   0x4D3518057F3D5CE3A6C866C65D5BCCA9DAEC6FEA9F926F919F46222F3991467DA5BF6D8E1143C44F43958302D0214EEB022083B83FB6180C18F8931E281658E626486E3E8BD78A707477E4C1B506E07CF32D0A2579098B02E4EABB8128123B2369DEAD381574CA16DF871B62211C40B7A51A9EF90014377B041E8AC809114003,
   0xBD59E4D2E3D156D54FE876D52F91A340557BE8DE00EAE4A70CE5C2EC4DB4BBA6E756BDFFDD3369ACEC17B0350657232799AFC8B056C8C3916B65811C5E1461196E85CB75BE07C002C2325577893FF4EC5BBFC92DD0EC3B25B7801AB78D6D3B2420C763EFC366A5FC9C3828800ACE3205AAC9548AECA1D7C7041AFA321D16625A,
   0x6701902C9B757A5431D477F79126B03136CC6FDBC70B8B46D9E66A4856E55A79026A4CEB52437EFF2F8F76B40DF980A58674CDE3EDDA04EB17A9BE042C18F4DFB7747F9DAB2AF7B4EFC34D202E096B7C1741A254E5B6A035213D42F62C1C7C2661C2F50F6552DAF9D2C231F825130F69D8167FA20418F2C8001A96A60D1526AB,
   0x63315C215E0A72EC49BAFEFD187908D98D0DBD86311170A73E9B640CCC3E10D7D5CAD3B60CAEC388F73001E16C728AFF71EAE2A11F9AF36ECFCBD12FC1DE8417AC07BE6BCB44A1D88B9B0F56013988C3B1C52FCAB4BE31CDD878280612A3A4E26F7DE53258FD7EB6D01EE90024ADFFC2F4990FC59711AAC5001D7B9582E5E7D2,
   0x109873F600613096C32D9521ADA121FF299084157FBB977FAF9EB3DB29C9ED2A5CE2A465A730F32CD0AA3FE88A5CC091D49E2CE70CE454A9D60ACD86015F191977079103DEA03AF678A8565EDEE356DF21F05CBE8B75E387B3C50651B8A5C3EFD8EEB6D2E523BE77C21545292F69EFDFAFE67AFBF470C4B2F3E0EB5BD6CC9876,
   0x39E4460C1FDA85381987832FCA007367A99144F8296B299E492FC2959266BEABB5676E699BD3DDDADF7E052FDB25701C1B5E51EEF65324E66AFCE36C0316CC048644213EB7DC59D07965291FCCD6FD4341823979932BCDF6B657C34D4EDFD2827AE5290C3CB9536B851E20FE9833557E13ECF0B0D3FFB3723F85C5C10AEF7ED2]

/-- Table 4 of the candidate: 32 entries a literal, first entry most significant. -/
def std4 : List Nat :=
  [0x7EC90C042C6E74B99B0E66DFA6337911B86A7FFF1DD358F544DD9D441731167F08FBF1FAE7F511CCD2051B00735ABA002AB722D8386381CBACF6243A69BEFD7AE6A2E77FF0C720CDC4494816CCF5C1803885164015B0A848E68B18CB4CAADEFF5F480A010412B2AA259814FC41D0EFE24E40B48D248EB6FB8DBA1CFE41A99B02,
   0x1A550A04BA8F65CB7251F4E795A51725C106ECD797A5980AC539B9AA4D79FE6AF2F3F76368AF8040ED0C9E5611B4958BE1EB5A888709E6B0D7E071564E29FEA76366E52D02D1C000C4AC8E059377F5710C05372A578535F22261BE02D642A0C9DF13A28074B55BD2682199C0D421E5EC53FB3CE8C8ADEDB328A87FC93D959981,
   0x5C1FF900FE38D3990C4EFF0B062407EAAA2F4FB14FB9697690C79505B0A8A774EF55A1FFE59CA2C2A6B62D27E66A4263DF65001F0EC50966DFDD55BC29DE0655911E739A17AF897532C7911C89F894680D01E980524755F403B63CC90CC844B2BCF3F0AA87AC36E9E53A742601B3D82B1A9E744964EE2D7ECDDBB1DA01C94910,
   0xB868BF800D26F3FD9342EDE704A5C284636737B650F5B616F24766E38ECA36C1136E05DBFEF18391FB887A37D6E7F7D4C7FB7DC93063FCDFB6F589DEEC2941DA26E46695B7566419F654EFC5D08D58B748925401C1BACB7FE5FF550FB60830495BB5D0E887D72E5AAB6A6EE1223A66CEC62BF3CD9E0885F968CB3E47086C010F,
   0xA21DE820D18B69DEF3F65777FA02C3F6407EDAC3CBB3D5501793084DB0D70EBA0AB378D5D951FB0CDED7DA564124BBE494CA0B560F5755D1E0E1E56E6184B5BE580A249F94F74BC0E327888E9F7B5561C3DC028005687715646C6BD744904DB366B4F0A3C0F1648A697ED5AF49E92FF6309E374F2CB6356A858085734991F840,
   0x76F0AE02083BE84D28421C9A44489406736E4CB8C10929108BC95FC67D869CF4134F616F2E77118DB31B2BE1AA90B4723CA5D7177D161BBA9CAD9010AF462BA29FE459D245D34559D9F2DA13DBC65487F3E4F94E176D486F097C13EA631DA5C7445F7382175683F4CDC66A9770BE0288B3CDCF726E5DD2F320936079459B80A5,
   0xBE60E2DBA9C23101EBA5315C224E42F21C5C1572F6721B2C1AD2FFF38C25404E324ED72F4067B7FD0523138E5CA3BC78DC0FD66E75922283784D6B1758EBB16E44094F853F481D87FCFEAE7B77B5FF768C2302BFAAF475565F46B02A2B0928013D38F5F70CA81F3652AF4A8A66D5E7C0DF3B0874950551101B5AD7A8F61ED5AD,
   0x6CF6E47920758184D0CEFA6588F7BE584A0468260FF6F8F3A09C7F705346ABA05CE96C28E176EDA36BAC307F376829D285360FA917E3FE2A24B79767F5A96B20D6CD259568FF1EBF7555442CF19F06BEF9E0659AEEB9491D34010718BB30CAB8E822FE1588570983750E6249DA627E555E76FFA8B15345466D47DE08EFE9E7D4]

/-- Table 5 of the candidate: 32 entries a literal, first entry most significant. -/
def std5 : List Nat :=
  [0xF6FA8F9D2CAC6CE14CA34867E2337F7C95DB08E7016843B4ECED5CBC325553ACBF9F0960DFA1E2ED83F0579D63ED86B91AB6A6B8DE5EBE39F38FF7328989B13833F14961C01937BDF506C6DAE4625E7EA308EA994E23E33C79CBD7CC48A14367A3149619FEC94BD5A114174AEAA01866A084DB2D09A8486FA888614A2900AF98,
   0x01665991E1992863C8F30C602E78EF3CD0D51932CF0FEC14F7CA07D2D0A82072FD41197E9305A6B0E86BE3DA74BED3CD372DA53C4C7F4448DAB5D4406DBA0EC3083919A79FBAEED949DBCFB04E670C535C3D9C0164BDB9412C0E636ABA7DD9CDEA6F7388E70BC76235F29ADB5C4CDD8DF0D48D8CB88153E208A198661AE2EAC8,
   0x284CAF89AA9282239334BE533B3A21BF16434BE39AEA3906EFE8C36EF890CDD980226DAEC340A4A3DF7E9C09A694A8075B7C5ECC221DB3A69A69A02F68818A54CEB2296F53C0843AFE89365525BFE68AB4628ABCCF222EBF25AC6F48A9A9938753BDDB65E76FFBE7E967FD780BA935638E342BC1E8A11BE94980740DC8087DFC,
   0x8DE4BF99A11101A07FD37975DA5A26C0E81F994F9528CD89FD339FEDB87834BF5F04456D22258698C9C4C83B2DC156BE4F628DAA57F55EC5E2220ABED2916EBF4EC75B9524F2C3C042D15D99CD0D7FA07B6E27FFA8DC8AF07345C106F41E232F35162386E6EA89263333B094157EC6F2372B74AF692573E4E9A9D848F3160289,
   0x3A62EF1DA787E238F3A5F67674364853209510634576698DB6FAD407592AF95036F735234CFB6E877DA4CEC06C152DAACB0396A8C50DFE5DFCD707AB0921C42F89DFF0BB5FE2BE78448F4F33754613C92B05D08D48B9D585DC049441C8098F9B7DEDE786C39A3373424100056A0917510EF3C8A6890072D628207682A9A9F7BE,
   0xBF32679DD45B5B75B353FD00CBB0E358830F220A1F8FB214D372CF08CC3C4A138CF63166061C87BE88C98F886062E39747CF8E7AB6C852833CC2ACFB3FC069764E8F025264D8314DDA3870E31E665459C10908F0513021A56C5B68B7822F8AA03007CD3E74719EEFDC872681073340D47E432FD90C5EC2418809286CF592D891,
   0x08A930F6957EF305B7FBFFBDC266E96F6FE4AC98B173ECC0BC60B42A953498DAFBA1AE122D4BD7360F25FAABA4F3FCEBE2969123257F0C3D9348AF49361400BCE8816F4A3814F200A3F940439C7A54C2BC704F57DA41E7F9C25AD33A54F4A084B17F550559357CBEEDBD15C87F97C5ABBA5AC7B5B6F6DEAF3A479C3A5302DA25,
   0x653D7E6A54268D4951A477EA5017D55BD7D25D8844136C760404A8C8B8E5A121B81A928A60ED586997C55B96EAEC991B2993591301FDB7F1088E8DFA9AB6F6F53B4CBF9F4A5DE3ABE6051D35A0E1D855D36B4CF1F544EDEBB0E93524BEBB8FBDA2D762CF49C92F5438B5F3317128A45448392905A65B1DB8851C97BDD675CF2F]

/-- Table 6 of the candidate: 32 entries a literal, first entry most significant. -/
def std6 : List Nat :=
  [0x85E04019332BF567662DBFFFCFC656932A8D7F6FAB9BC912DE6008A12028DA1F0227BCE74D64291618FAC30050F18B822CB2CB11B232E75C4B3695F2B28707DEA05FBCF6CD4181E9E150210CE24EF1BDB168C381FDE4E7895C79B0D81E8BFD434D49500138BE4341913CEE1D92A79C3F089766BEBAEEADF41286BECFB6EACB19,
   0x2660C2007565BDE464241F7A8248DCA9C3B3AD66281360860BD8DFA8356D1CF2107789BEB3B2E9CE0502AA8F0BC0351E166BF52AEB12FF82E3486911D34D75164E7B3AFF5F43671B9CF6E0374981AC83334266CE8C9341B7D0D854C0CB3A6C8847BC28294725BA37A66AD22B7AD61F1E0C5CBAFA4437F107B6E7996242D2D816,
   0x0A961288E1A5C06E13749E6772FC081AB1D139F7F9583745CF19DF58BEC3F756C06EBA3007211B2445C28829C95E317FBC8EC51138BC46E9C6E6FA14BAE8584AAD4EBC46468F508B7829435FF124183B821DBA9FAFF60FF4EA2C4E6D16E3926492544A8B009B4FC3ABA68CED9AC96F7806A5B79AB2856E6E1AEC3CA9BE838688,
   0x0E0804E955F1BE56E7E5363BB3A1F25DF7DEBB8561FE033C167462333C034C28DA6D0C7479AAC56C3CE4E1AD51F0C80298F8F35A1626A49FEED82B291D382FE30C4FB99ABB3257783EC6D97B6E77A6A9CB658B5CD45230C72BD1408B60C03EB7B9068D78A33754F4F430C87DC8A71302B96D8C32EBD4E7BEBE8B9D2D7979FB06,
   0xE72253088B75CF7711EF8DA4E083C8588D6B786F5A6317A6FA5CF7A05DDA0033F28EBFB0F5B9C310A0EAC28008B9767AA3D9D2B079D34217021A718D9AC6336A2711FD60438050E3069908A83D7FEDC4826D2BEF4EEB8476488DCF2536C9D56628E74E41C2610ACA3D49A9CFBAE3B9DFB65F8DE692AEAF643AC7D5E69EA80509,
   0xF22B017DA4173F70DD1E16C315E0D7F950B1B8872B9F4FD5625ABA826A0179622EC01B9C15488AA9D716E74040055A2C93D29A22E32DBF9A058745B93453DC1ED699296E496CFF6F1C9F4986DFE2ED07B87242D119DE7EAE053E561A15AD6F8C66626C1C7154C24CEA082B2A93EB293917DCB0F058D4F2AE9EA294FB52CF564C,
   0x9883FE662EC40581763953C301D6692ED3A0C108A1E7160EE4F2DFA6693ED285749046984C2B0EDD4F7576565D393378A132234F3D321C5DC3F5E1944B269301C79F022F3C997E7E5E4F95043FFAFBBD76F7AD0E296693F43D1FCE6FC61E45BED3B5AB34F72BF9B71B0434C04E72B5675592A33DB5229301CFD2A87F60AEB767,
   0x1814386B30BCC33D38A0C07DFD1606F2C363519B589DD3905479F8E61CB8D64797FD61A9EA7759F42D57539D569A58CFE84E63AD462E1B786580F87EF381791491DA55F440A230F3D1988F35B6E318D23FFA50BC3D40F021C3C0BDAE4958C24C518F36B284B1D3700FEDCE83878DDADAF2A279C794E01BE890716F4B954B8AA3]

/-- Table 7 of the candidate: 32 entries a literal, first entry most significant. -/
def std7 : List Nat :=
  [0xE216300DBBDDFFFCA7EBDABD356480957789F8B7E6C1121B0E241600052CE8B511A9CFB0E5952F11ECE7990A9386D1742A42931C76E38111B12DEF3A37DDDDFCDE9ADEB10A0CC32CBE19702984A00940BB243A0FB4D137CFB44E79F0049EEDFD0B15A15D480D31688BBBDE5A669DED42C7ECE8313F8F95E772DF191B7580330D,
   0x940742515C7DCDFAABBE6D63AA402164B301D40A02E7D1CA53571DAE7A3182A212A8DDECFDAA335D176F43E871FB46D438129022CE949AD4B84769AD965BD86282F3D05566FB976715B80B4E1D5B47A04CFDE06FC28EC4B857E8726E647A78FC99865D44608BD5936C200E0339DC5FF65D0B00A3AE63AFF27E8BD63270108C0C,
   0xBBD350492998DF04980CF42A9B6DF4919E7EDD530691854858CB7E073B74EF2E522FFFB1D24708CC1C7E27CDA4EB215B3CF1D2E219B47A38424F7618358560399D17DEE727EB35E6C9AFF67B36BAF5B809C467CDC18910B1E11DBF7B06CD1AF87170C6082D5E3354D4DE495A64C6D006BCC0C62C3DD00DB3708F8F3477D51B42,
   0x264F620F24B8D2BF15C1B79E46A52564F8D7E54E3E3781607895CDA5859C15A5E6459788C37BC75FDB07BA0C0676A3AB7F229B1E31842E7B24259FD7F8BEF472835FFCB86DF4C1F296F5B195FD0AF0FCB0FE134CE2506D3D4F9B12EAF215F225A223736F9FB4C42825D0497934C713F8C4618187EA7A6E987CD16EFC1436876C,
   0xF1544107BEDEEE1456E9AF27A04AA4413CF7C89992ECBAE6DD67016D151682EBA842EEDFFDBA60B4F1907B7520E3030F24D8C29EE139673BEFA63FB871873054B6F2CF3B9F326442CB15A4CCB01A4504F1E47D8D844A1BE5BAE7DFDC42CBDA70CD7DAE0A57E85B7AD53F5AF620CF4D8CCEA4D42879D130A43486EBFB33D3CDDC,
   0x77853B5337EFFCB5C5068778E580B3E64E68B8F4C5C8B37E0D809EA2398FEB7C132A4F9443B7950E2FEE7D1C223613BDDD06CAA237DF932BC4248289ACF3EBC35715F6B7EF3478DDF267616FC148CBE49052815E5E410FABB48A24652EDA7FA4E87B40E4E98EA0845889E9E1EFD390FCDD07D35BDB48569438D7E5B257720101,
   0x730EDEBC5B64311394917E4F503C2FBA646F12827523D24AE0779695F9C17A8F7A5B2121D187B89629263A4DBA510CDF81F47C9FAD1163EDEA7B59651A00726E1140309200DA6D774A0CDD61AD1F4603605BDFB09EEDC36422EBE6A8CEE7D28AA0E736A05564A6B910853209C7EB8F372DE705CA8951570FDF09822BBD691A6C,
   0xAA12E4F287451C0FE0F6A27A3ADA48194CF1764F0D771C2B67CDB156350D83845938FA0F42399EF336997B070E84093D4AA93E618360D87B1FA98B0C1149382CE97625A50614D1B70E25244B0C768347589E8D820D2059D1A466BB1EF8DA0A8204F19130BA6E4EC0992651641EE7230D50B2AD80EAEE68018DB2A283EA8BF59E]

/-- Entry `b` of a table held as such literals. -/
def stdEntry (rows : List Nat) (b : Nat) : Word := BitVec.ofNat 32 (rows.getD (b / 32) 0 >>> (32 * (31 - b % 32)))

/-- `SBOX_STD` (`spec/97_candidate_tables.md`). -/
def sboxStd : Tables :=
  tablesOf fun t b => stdEntry ([std0, std1, std2, std3, std4, std5, std6, std7].getD t []) b

end Sys2Proof.Tests
end

