-- ==== Sys2Proof/Tests/Slice0.lean ====
section
/-! SUPPORT. Tests. Expected values are those of `spec/95_test_vectors.md` and of the examples in the rules, or worked out
by hand from a rule; each test says which. A `witness` meets every hypothesis of the obligation it is named after, one
theorem for each clause. -/

namespace Sys2Proof.Tests

open Sys2Proof.Machine

/-! ### Small states -/

/-- A block of two engines. -/
def params (sbox : Option Tables) (r : Reinit) : Params where
  sbox := sbox
  pwkeyA := keyA
  pwkeyB := keyB
  others := 1
  reinit := r

/-- A block out of reset with engine 0 as given and engine 1 fresh, port 0 executing. -/
def block (p : Params) (e : Engine) (actions : List HostAction) : State where
  cfg := p
  engines := [e, Engine.reset]
  port := 0
  inReset := false
  resets := 0
  inputs := actions
  outputs := []

/-- An initialised engine with round keys as given. -/
def keyed (fe r16 : Bool) (km : Vector Word 16) (kr : Vector Rotation 16) : Engine := ⟨true, fe, r16, km, kr⟩

/-- The 16-byte key of section 3.1. -/
def key16 : List Byte := [0x00, 0x01, 0x02, 0x03, 0x04, 0x05, 0x06, 0x07, 0x08, 0x09, 0x0A, 0x0B, 0x0C, 0x0D, 0x0E, 0x0F]

/-- The 5-byte key of section 3.1. -/
def key5 : List Byte := [0x01, 0x23, 0x45, 0x67, 0x12]

/-- The 10-byte key of section 3.1. -/
def key10 : List Byte := [0x01, 0x23, 0x45, 0x67, 0x12, 0x34, 0x56, 0x78, 0xAB, 0xCD]

/-- `KM` of the 16-byte key under `SBOX_T`, from section 3.1. -/
def km16 : Vector Word 16 :=
  #v[0xB79EEC36, 0x1A6FBA1A, 0xCCCE9182, 0x9D437757, 0x30D00E57, 0x91AAB36E, 0x8D852080, 0x593EDCD1,
     0xE9F4393C, 0xDE402930, 0xE0459623, 0x48009AA9, 0x41488C87, 0xBE58C98A, 0x551A2680, 0x1CD86895]

/-- `KR` of the 16-byte key under `SBOX_T`, from section 3.1. -/
def kr16 : Vector Rotation 16 := #v[21, 27, 30, 2, 17, 13, 22, 23, 21, 15, 20, 22, 23, 3, 10, 18]

/-- `KM` of the 5-byte key under `SBOX_T`, from section 3.1. -/
def km5 : Vector Word 16 :=
  #v[0x737B01DE, 0x349ACC53, 0x18E8C499, 0x8AEA09DE, 0x5AD6FCB3, 0xBCC284F5, 0x2BCD4837, 0x64B81B72,
     0x02D279FF, 0xCA1BAA34, 0x885BC2E3, 0xF11E4B3D, 0x7F453D70, 0xABD34D57, 0x1E37964A, 0x0E9703B4]

/-- `KR` of the 5-byte key under `SBOX_T`, from section 3.1. -/
def kr5 : Vector Rotation 16 := #v[24, 16, 6, 27, 17, 3, 12, 12, 15, 15, 8, 7, 26, 18, 24, 6]

/-- The engine after `INIT fe=1` with the 16-byte key. -/
def engine16 : Engine := keyed true true km16 kr16

/-- The engine after `INIT fe=0` with the 5-byte key. -/
def engine5 : Engine := keyed false false km5 kr5

/-- The configuration of program 1. -/
def paramsT : Params := params (some sboxT) .reject

/-- `0123456789ABCDEF`. -/
def data : List Byte := [0x01, 0x23, 0x45, 0x67, 0x89, 0xAB, 0xCD, 0xEF]

/-- The responses a step has sent, where it answers. -/
def responses : Host.Outcome State Fault Refusal → Option (List Response)
  | .next t => some t.outputs
  | _ => none

/-- An engine after a step, where it answers and the block has it. -/
def engineOf (k : Nat) : Host.Outcome State Fault Refusal → Option Engine
  | .next t => t.engines[k]?
  | _ => none

/-! ### WellFormed: an ill-formed term for each check -/

theorem test_wf_init_refused : (Instr.init false (List.replicate 256 0)).wf = false := by decide +kernel
theorem test_wf_enc_refused : (Instr.enc (List.replicate 256 0)).wf = false := by decide +kernel
theorem test_wf_dec_refused : (Instr.dec (List.replicate 256 0)).wf = false := by decide +kernel
theorem test_wf_pwdec_refused : (Instr.pwdec 0 (List.replicate 256 0)).wf = false := by decide +kernel
theorem test_wf_serdec_refused (n : Nat) (h : n = 65536) : (Instr.serdec 0 (List.replicate n 0)).wf = false :=
  decide_eq_false (by rw [List.length_replicate, h]; decide)

/-! ### Decoding: frames written out from R42 to R46, and the rows of the opcode table -/

/-- R56's example. -/
theorem test_decode_init :
    decode [0x01, 0x01, 0x05, 0x01, 0x23, 0x45, 0x67, 0x12] = .command (.init true key5) := by decide

/-- R76's example. -/
theorem test_decode_enc :
    decode [0x02, 0x08, 0x01, 0x23, 0x45, 0x67, 0x89, 0xAB, 0xCD, 0xEF] = .command (.enc data) := by decide

/-- R77's example. -/
theorem test_decode_dec :
    decode [0x03, 0x08, 0x23, 0x8B, 0x4F, 0xE5, 0x84, 0x7E, 0x44, 0xB2] =
      .command (.dec [0x23, 0x8B, 0x4F, 0xE5, 0x84, 0x7E, 0x44, 0xB2]) := by decide

/-- R83's example. -/
theorem test_decode_pwdec :
    decode [0x04, 0x03, 0x04, 0x41, 0x00, 0x42, 0xFF] = .command (.pwdec 3 [0x41, 0x00, 0x42, 0xFF]) := by decide

/-- R86's example. -/
theorem test_decode_serdec :
    decode [0x05, 0x03, 0x00, 0x03, 0x00, 0xFF, 0x84, 0xA5] = .command (.serdec 3 [0xFF, 0x84, 0xA5]) := by decide

/-- R46. -/
theorem test_decode_stat : decode [0x06] = .command .stat := by decide

/-- R48: program 4, rows 2 to 4. -/
theorem test_decode_illegal :
    decode [0x00] = .rejected .illegalOpcode ∧ decode [0x07] = .rejected .illegalOpcode ∧
      decode [0xFF, 0x01, 0x02] = .rejected .illegalOpcode := by decide

/-- R49: program 4, rows 1, 6, 8, 9, 15 and 18. -/
theorem test_decode_malformed :
    decode [] = .rejected .emptyFrame ∧ decode [0x01, 0x01] = .rejected .shortHeader ∧
      decode [0x01, 0x02, 0x00] = .rejected .badDirection ∧
      decode [0x01, 0x01, 0x02, 0x01] = .rejected .lengthMismatch ∧
      decode [0x06, 0xAA] = .rejected .lengthMismatch ∧
      decode [0x05, 0x03, 0x00, 0x03] = .rejected .shortHeader := by decide

/-- Each row of the opcode table, its operand bytes zero. -/
theorem test_decode_table :
    decodeTableWord 8 0x01 = some (.init false []) ∧ decodeTableWord 8 0x02 = some (.enc []) ∧
      decodeTableWord 8 0x03 = some (.dec []) ∧ decodeTableWord 8 0x04 = some (.pwdec 0 []) ∧
      decodeTableWord 8 0x05 = some (.serdec 0 []) ∧ decodeTableWord 8 0x06 = some .stat ∧
      decodeTableWord 8 0x00 = none ∧ decodeTableWord 8 0x07 = none := by decide

/-- A table word longer than one byte: `02 08` and eight data bytes, byte 0 least significant. -/
theorem test_decode_long_word : decodeTableWord 80 0xEFCDAB89674523010802 = some (.enc data) := by decide

/-- R52's lines. -/
theorem test_text :
    instrText (.pwdec 3 [0x41, 0x42, 0x43]) = "PWDEC dlen=3 buf=414243" ∧ instrText (.enc []) = "ENC data=-" ∧
      frameText [0x02, 0x08, 0xAA] = "RAW 0208AA" ∧ replyText ⟨.eNotInit, []⟩ = "-> E_NOTINIT" ∧
      replyText ⟨.ok, [0x9B, 0x41]⟩ = "-> OK 9B41" := by decide +kernel

/-! ### Shared operations: sections 2 and 3 -/

/-- Section 2. -/
theorem test_notation :
    rol32 0x80000001 0 = 0x80000001 ∧ rol32 0x80000001 1 = 0x00000003 ∧ rol32 0x80000001 31 = 0xC0000000 ∧
      rol32 0x12345678 8 = 0x34567812 ∧ rol32 0x12345678 16 = 0x56781234 ∧ rol32 0xFFFFFFFF 5 = 0xFFFFFFFF ∧
      add32 0xFFFFFFFF 1 = 0 ∧ add32 0x80000000 0x80000000 = 0 ∧ sub32 0 1 = 0xFFFFFFFF ∧
      sub32 5 7 = 0xFFFFFFFE ∧ sub32 7 5 = 2 ∧ be32 0x01 0x23 0x45 0x67 = 0x01234567 ∧
      bytesOf32 0x89ABCDEF = [0x89, 0xAB, 0xCD, 0xEF] ∧ le16 0x03 0x00 = 3 ∧ le16 0x34 0x12 = 0x1234 := by decide

/-- Section 3, the samples of `SBOX_T`. -/
theorem test_tables :
    tableRead (some sboxT) 0 255 = 0x3779B100 ∧ tableRead (some sboxT) 3 0x67 = 0xECF682E8 ∧
      tableRead (some sboxT) 7 255 = 0xBBCD8800 := by decide +kernel

/-- Section 3.2, rows 2, 4 and 6. -/
theorem test_round_functions :
    roundA (some sboxT) 0x22222222 0 0xDEADBEEF = 0x0522BA91 ∧
      roundB (some sboxT) 0x33333333 0 0xDEADBEEF = 0xF10C9E00 ∧
      roundC (some sboxT) 0x44444444 0 0xDEADBEEF = 0xDEA1EBD5 := by decide +kernel

/-- Section 3.2, rows 8, 12 and 16: types and rotations by the number of the round. -/
theorem test_round_function_types :
    roundFunction .cast128 (some sboxT) (Vector.replicate 16 0x55555555) (Vector.replicate 16 31) 3 0xDEADBEEF =
        0xCD21B2E1 ∧
      roundFunction .cast128 (some sboxT) (Vector.replicate 16 0x77777777) (Vector.replicate 16 31) 5 0xDEADBEEF =
        0xF37A422A ∧
      roundFunction .cast128 (some sboxT) (Vector.replicate 16 0x99999999) (Vector.replicate 16 1) 7 0xDEADBEEF =
        0x991CF538 := by decide +kernel

/-- Section 3.1, row 2. -/
theorem test_key_schedule_5 : keySchedule .cast128 (some sboxT) key5 = (km5, kr5) := by decide +kernel

/-- `spec/97_candidate_tables.md`, the first entry and the last. -/
theorem test_candidate_tables :
    tableRead (some sboxStd) 0 0 = 0x30FB40D4 ∧ tableRead (some sboxStd) 7 255 = 0xEA8BF59E := by decide +kernel

/-! ### One step of each command -/

/-- Program 1, row 3: `INIT` loads the flags and the round keys of section 3.1, row 1. -/
theorem test_init_loads :
    engineOf 0 (step (block paramsT Engine.reset [.present 0 (encode (.init true key16))])) = some engine16 := by
  decide +kernel

/-- Program 2, row 4 under `REINIT = reject`. -/
theorem test_init_reinit :
    responses (step (block paramsT engine5 [.present 0 (encode (.init true key16))])) =
      some [⟨0, [0x07, 0x00, 0x00]⟩] := by decide +kernel

/-- Program 1, row 5. -/
theorem test_enc_16_rounds :
    responses (step (block paramsT engine16 [.present 0 (0x02 :: 0x08 :: data)])) =
      some [⟨0, [0x00, 0x08, 0x00, 0x9D, 0x10, 0xC9, 0x37, 0x1A, 0xA5, 0x47, 0x71]⟩] := by decide +kernel

/-- Program 2, row 3. -/
theorem test_enc_12_rounds :
    responses (step (block paramsT engine5 [.present 0 (0x02 :: 0x08 :: data)])) =
      some [⟨0, [0x00, 0x08, 0x00, 0x38, 0xA2, 0x3C, 0xEA, 0x37, 0x7D, 0xB0, 0x3E]⟩] := by decide +kernel

/-- Program 1, row 7. -/
theorem test_dec_16_rounds :
    responses (step (block paramsT engine16 [.present 0 (0x03 :: 0x08 :: data)])) =
      some [⟨0, [0x00, 0x08, 0x00, 0xCD, 0xCB, 0x48, 0x37, 0x0D, 0xA9, 0xE8, 0x99]⟩] := by decide +kernel

/-- Section 3.4, row 4. -/
theorem test_dec_12_rounds :
    responses (step (block paramsT engine5 [.present 0 (0x03 :: 0x08 :: data)])) =
      some [⟨0, [0x00, 0x08, 0x00, 0x6E, 0xE4, 0xB2, 0x38, 0xEE, 0xEE, 0x17, 0x05]⟩] := by decide +kernel

/-- Section 5.1, row 2 with 8 bytes handed over. -/
theorem test_pwdec_keys :
    responses (step (block paramsT Engine.reset
        [.present 1 [0x04, 0x08, 0x08, 0x70, 0x61, 0x73, 0x73, 0x77, 0x6F, 0x72, 0x64]])) =
      some [⟨1, [0x00, 0x08, 0x00, 0x9F, 0x81, 0xA2, 0x91, 0xA4, 0xB3, 0x87, 0xAA]⟩] := by decide +kernel

/-- Section 5.1, row 7: the bytes that XOR to null vanish. -/
theorem test_pwdec_strips :
    responses (step (block paramsT Engine.reset [.present 0 [0x04, 0x04, 0x04, 0xAE, 0xE0, 0x93, 0xE2]])) =
      some [⟨0, [0x00, 0x02, 0x00, 0x41, 0x42]⟩] := by decide +kernel

/-- Section 5.2, row 2. -/
theorem test_serdec_strips :
    responses (step (block paramsT Engine.reset
        [.present 0 [0x05, 0x03, 0x00, 0x03, 0x00, 0xFF, 0x84, 0xA5]])) =
      some [⟨0, [0x00, 0x02, 0x00, 0x9B, 0x41]⟩] := by decide +kernel

/-- Section 5.2, row 5: a null byte stays, the fifth byte is ignored. -/
theorem test_serdec_declared :
    responses (step (block paramsT Engine.reset
        [.present 0 [0x05, 0x04, 0x00, 0x05, 0x00, 0x64, 0xA5, 0xA6, 0xA7, 0xA8]])) =
      some [⟨0, [0x00, 0x04, 0x00, 0x00, 0x41, 0x42, 0x43]⟩] := by decide +kernel

/-- Program 1, row 4. -/
theorem test_stat_initialised :
    responses (step (block paramsT engine16 [.present 0 [0x06]])) = some [⟨0, [0x00, 0x01, 0x00, 0x0F]⟩] := by
  decide +kernel

/-- Program 3, row 1. -/
theorem test_stat_without_tables :
    responses (step (block (params none .reject) Engine.reset [.present 0 [0x06]])) =
      some [⟨0, [0x00, 0x01, 0x00, 0x00]⟩] := by decide +kernel

/-- R76's example under the candidate tables (section 4.1, row 3: the 5-byte key). -/
theorem test_candidate_ciphertext :
    (blockCommand forwardOrder data (params (some sboxStd) .reject)
        (initEngine (params (some sboxStd) .reject) true key5)).2 =
      ⟨.ok, [0x7A, 0xC8, 0x16, 0xD1, 0x6E, 0x9B, 0x30, 0x2E]⟩ := by decide +kernel

/-- Right after reset, the instruction that `withFetchWord` places runs and answers. -/
theorem test_withFetchWord :
    responses (step (State.reset.withFetchWord 8 0x05)) = some [⟨0, [0x00, 0x00, 0x00]⟩] := by decide +kernel

/-- A release of reset clears the flags (R108). -/
theorem test_release_reset :
    (engineOf 0 (step { block paramsT engine16 [.releaseReset] with inReset := true })).map
      (fun e => (e.inited, e.fenc, e.r16)) = some (false, false, false) := by decide +kernel

/-! ### Witnesses: operands and frames -/

theorem witness_rotation : (1 : Nat) ≤ (1 : Rotation).toNat ∧ 1 ≤ (31 : Rotation).toNat := by decide

theorem witness_subtraction :
    (7 : Word).toNat ≤ (7 : Word).toNat ∧ (0 : Word).toNat < (1 : Word).toNat := by decide

/-- `DecodeOfEncode`, at the longest strings. -/
theorem witness_decodeOfEncode :
    (Instr.init true (List.replicate 255 0)).wf = true ∧ (Instr.pwdec 255 (List.replicate 255 0)).wf = true ∧
      (Instr.serdec 65535 (List.replicate 65535 0)).wf = true ∧ Instr.stat.wf = true := by
  simp only [Instr.wf_init, Instr.wf_pwdec, Instr.wf_serdec, Instr.wf_stat, List.length_replicate]
  decide

/-- `EncodeOfDecode`, `NoCommandAboveLongestFrame`. -/
theorem witness_decodes : decode [0x02, 0x00] = .command (.enc []) := by decide

/-- `IllegalOpcodeAnswersIllegal`, second clause, both ends of both ranges. -/
theorem witness_illegal (op : Byte) (h : op = 0x00 ∨ op = 0x07 ∨ op = 0xFF) :
    (block paramsT engine16 [.present 0 [op, 0x55]]).Accepts 0 (op :: [0x55]) [] engine16 ∧
      (op.toNat = 0 ∨ (7 ≤ op.toNat ∧ op.toNat ≤ 255)) :=
  ⟨⟨rfl, rfl, rfl⟩, by obtain rfl | rfl | rfl := h <;> decide⟩

/-- `IllegalOpcodeAnswersIllegal`, last clause. -/
theorem witness_emptyFrame : (block paramsT engine16 [.present 1 []]).Accepts 1 [] [] Engine.reset :=
  ⟨rfl, rfl, rfl⟩

/-- `MalformedFrameAnswersFrame`: every frame of the list is malformed, one for each way to be so. -/
theorem witness_malformed (f : Frame)
    (h : f ∈ [[], [0x01, 0x01], [0x05, 0x03, 0x00, 0x03], [0x01, 0x01, 0x02, 0x01], [0x06, 0xAA], [0x01, 0x02, 0x00]]) :
    (block paramsT engine16 [.present 0 f]).Accepts 0 f [] engine16 ∧ malformed f := by
  refine ⟨⟨rfl, rfl, rfl⟩, ?_⟩
  have legal (op : Byte) (rest : Frame) (h1 : 1 ≤ op.toNat) (h6 : op.toNat ≤ 6) : legalOpcode (op :: rest) :=
    ⟨op, rest, rfl, h1, h6⟩
  simp only [List.mem_cons, List.not_mem_nil, or_false] at h
  obtain rfl | rfl | rfl | rfl | rfl | rfl := h
  · exact .inl rfl
  all_goals exact .inr ⟨legal _ _ (by decide) (by decide), by decide⟩

/-- `MalformedFrameAnswersFrame`, second clause. -/
theorem witness_wellFormedFrame : legalOpcode [0x01, 0x01, 0x00] ∧ ¬ malformed [0x01, 0x01, 0x00] := by
  refine ⟨⟨0x01, [0x01, 0x00], rfl, by decide, by decide⟩, ?_⟩
  rintro (h | ⟨-, h⟩)
  · exact absurd h (by decide)
  · exact absurd h (by decide)

/-- `ResponseFrameLayout`, at the longest payload. -/
theorem witness_responseFrame : (Reply.mk .ok (List.replicate 65535 0)).payload.length ≤ 65535 := by
  simp only [List.length_replicate, Nat.le_refl]

/-! ### Witnesses: the step -/

/-- `StepRunsDecodedCommand`. -/
theorem witness_stepRuns :
    (block paramsT engine16 [.present 1 [0x06], .releaseReset]).inputs = .present 1 [0x06] :: [.releaseReset] ∧
      (block paramsT engine16 [.present 1 [0x06], .releaseReset]).inReset = false ∧ decode [0x06] = .command .stat :=
  ⟨rfl, rfl, by decide⟩

/-- `WaitingChangesNothing`. -/
theorem witness_waiting : (block paramsT engine16 []).inputs = [] := rfl

/-- `ResetInput`, its three clauses. -/
theorem witness_resetInput :
    let s := { block paramsT engine16 [.present 0 [0x06]] with inReset := true }
    let s' := block paramsT engine16 [.assertReset [(0, [0x06])], .releaseReset]
    let s'' := { block paramsT engine16 [.releaseReset] with inReset := true }
    (s.inputs = .present 0 [0x06] :: [] ∧ s.inReset = true) ∧
      s'.inputs = .assertReset [(0, [0x06])] :: [.releaseReset] ∧
      s''.inputs = .releaseReset :: [] ∧ s''.inReset = true := ⟨⟨rfl, rfl⟩, rfl, rfl, rfl⟩

/-! ### Witnesses: `INIT` -/

/-- `InitLoadsRoundKeys`: a fresh engine, with keys of 1 and of 16 bytes, under either value of `REINIT`. -/
theorem witness_initLoads_fresh (r : Reinit) (key : List Byte) (h : key = [0x80] ∨ key = key16) :
    (block (params (some sboxT) r) Engine.reset []).engines[0]? = some Engine.reset ∧
      (params (some sboxT) r).sbox ≠ none ∧ 1 ≤ key.length ∧ key.length ≤ 16 ∧
      (Engine.reset.inited = true → (params (some sboxT) r).reinit = .rederive) :=
  ⟨rfl, nofun, by obtain rfl | rfl := h <;> decide, by obtain rfl | rfl := h <;> decide, nofun⟩

/-- `InitLoadsRoundKeys`: an initialised engine that may be rekeyed. -/
theorem witness_initLoads_rekey :
    (block (params (some sboxT) .rederive) engine5 []).engines[0]? = some engine5 ∧
      (params (some sboxT) .rederive).sbox ≠ none ∧ 1 ≤ key16.length ∧ key16.length ≤ 16 ∧
      (engine5.inited = true → (params (some sboxT) .rederive).reinit = .rederive) :=
  ⟨rfl, nofun, by decide, by decide, fun _ => rfl⟩

/-- `InitTestsInOrder`: no tables, with a key that is also too long. -/
theorem witness_initTests_tables :
    (block (params none .reject) Engine.reset []).engines[0]? = some Engine.reset ∧
      (params none .reject).sbox = none ∧ 16 < (List.replicate 17 (0 : Byte)).length :=
  ⟨rfl, rfl, by decide⟩

/-- `InitTestsInOrder`: an empty key and one of 17 bytes, on an engine that is also initialised. -/
theorem witness_initTests_key (key : List Byte) (h : key = [] ∨ key = List.replicate 17 0) :
    (block paramsT engine16 []).engines[0]? = some engine16 ∧ paramsT.sbox ≠ none ∧
      (key.length = 0 ∨ 16 < key.length) :=
  ⟨rfl, nofun, by obtain rfl | rfl := h <;> decide⟩

/-- `InitTestsInOrder`: initialised under `REINIT = reject`. -/
theorem witness_initTests_reinit :
    (block paramsT engine16 []).engines[0]? = some engine16 ∧ paramsT.sbox ≠ none ∧ 1 ≤ key16.length ∧
      key16.length ≤ 16 ∧ engine16.inited = true ∧ paramsT.reinit = .reject :=
  ⟨rfl, nofun, by decide, by decide, rfl, rfl⟩

/-- `InitTestsInOrder`, last clause. -/
theorem witness_initTests_rederive :
    (params (some sboxT) .rederive).reinit = .rederive ∧
      ∃ t, exec (.init true []) (block (params (some sboxT) .rederive) engine5 []) = .next t :=
  ⟨rfl, _, rfl⟩

/-- An engine right after reset keeps the invariant of an engine. -/
theorem reset_engine_inv (cfg : Params) : Engine.reset.Inv cfg := ⟨nofun, fun _ => ⟨rfl, rfl⟩⟩

/-- `WithoutTablesNothingInitialises`. -/
theorem witness_withoutTables :
    (block (params none .reject) Engine.reset []).Inv ∧ (params none .reject).sbox = none ∧
      (block (params none .reject) Engine.reset []).engines[0]? = some Engine.reset ∧
      ∃ t, step (block (params none .reject) Engine.reset []) = .next t := by
  refine ⟨⟨rfl, fun e he => ?_⟩, rfl, rfl, _, rfl⟩
  simp only [block, List.mem_cons, List.not_mem_nil, or_false, or_self] at he
  subst he
  exact reset_engine_inv _

/-- `RoundCountFromKeyLength`: the ends of both ranges, and the 10-byte key. -/
theorem witness_roundCount :
    (1 ≤ [(0x80 : Byte)].length ∧ [(0x80 : Byte)].length ≤ 10) ∧ (1 ≤ key10.length ∧ key10.length ≤ 10) ∧
      (11 ≤ (key10 ++ [0]).length ∧ (key10 ++ [0]).length ≤ 16) ∧ (11 ≤ key16.length ∧ key16.length ≤ 16) ∧
      key10.length = 10 := by decide

/-- `PaddedKeyLayout`: the last key byte and the first zero. -/
theorem witness_paddedKey : (4 : Fin 16).val < key5.length ∧ key5.length ≤ (5 : Fin 16).val := by decide

/-- `TransformXZLines`, `TransformZXLines`, `ScheduleRunsEightStages`: the arrays of one schedule. -/
theorem witness_stages : ∃ x0 z1 x2 z3 x4 z5 x6 z7 x8 : Array16,
    padKey key5 = x0 ∧ transformXZ (some sboxT) x0 = z1 ∧ transformZX (some sboxT) z1 = x2 ∧
      transformXZ (some sboxT) x2 = z3 ∧ transformZX (some sboxT) z3 = x4 ∧ transformXZ (some sboxT) x4 = z5 ∧
      transformZX (some sboxT) z5 = x6 ∧ transformXZ (some sboxT) x6 = z7 ∧ transformZX (some sboxT) z7 = x8 :=
  ⟨_, _, _, _, _, _, _, _, _, rfl, rfl, rfl, rfl, rfl, rfl, rfl, rfl, rfl⟩

/-- `KeyScheduleProperties`, first clause: two states that differ in their other engine and parameters. -/
theorem witness_keySchedule_function :
    let s := block paramsT Engine.reset []
    let s' := block (params (some sboxT) .rederive) engine5 []
    s.engines[0]? = some Engine.reset ∧ { s' with port := 1 }.engines[1]? = some Engine.reset ∧
      Engine.reset.inited = false ∧ s.cfg.sbox ≠ none ∧ s'.cfg.sbox = s.cfg.sbox ∧ s'.cfg.family = s.cfg.family ∧
      1 ≤ key16.length ∧ key16.length ≤ 16 :=
  ⟨rfl, rfl, rfl, nofun, rfl, rfl, by decide, by decide⟩

/-- `KeyScheduleProperties`, second clause. -/
theorem witness_keySchedule_padding : padKey key10 = padKey (key10 ++ [0]) := by decide

/-- `KeyScheduleProperties`, third clause: tables that differ in table 3 only. -/
theorem witness_keySchedule_tables :
    (∀ t : Fin 8, 4 ≤ t.val → sboxT[t.val] = (sboxT.set 3 (Vector.replicate 256 0))[t.val]) ∧
      sboxT[3][0] ≠ (sboxT.set 3 (Vector.replicate 256 0))[3][0] := by
  refine ⟨fun t ht => ?_, by rw [Vector.getElem_set_self]; decide +kernel⟩
  have : 3 ≠ t.val := by omega
  simp [this]

/-- `KeyScheduleProperties`, fourth clause. -/
theorem witness_keySchedule_zero : ∀ t : Fin 8, 4 ≤ t.val → sboxZero[t.val] = Vector.replicate 256 0 :=
  fun _ _ => Vector.getElem_replicate _

/-- `KeyScheduleProperties`, last clause: engines that differ in round 13 only. -/
theorem witness_keySchedule_unread :
    let e := engine5
    let e' := { engine5 with km := engine5.km.set 12 0, kr := engine5.kr.set 12 0 }
    e.r16 = false ∧ e'.r16 = false ∧ e.inited = e'.inited ∧ e ≠ e' ∧
      ∀ r : Fin 16, r.val < 12 → e.km[r.val] = e'.km[r.val] ∧ e.kr[r.val] = e'.kr[r.val] := by decide

/-! ### Witnesses: `ENC` and `DEC` -/

/-- `RoundFunctionByNumber`: the first and the last round of each type. -/
theorem witness_roundFunctionByNumber :
    (0 : Fin 16).val + 1 ∈ [1, 4, 7, 10, 13, 16] ∧ (15 : Fin 16).val + 1 ∈ [1, 4, 7, 10, 13, 16] ∧
      (1 : Fin 16).val + 1 ∈ [2, 5, 8, 11, 14] ∧ (13 : Fin 16).val + 1 ∈ [2, 5, 8, 11, 14] ∧
      (2 : Fin 16).val + 1 ∈ [3, 6, 9, 12, 15] ∧ (14 : Fin 16).val + 1 ∈ [3, 6, 9, 12, 15] := by decide

/-- The pairs of sections 3.3, forward from the block, for an engine. -/
def pairs (e : Engine) (n : Nat) : Word × Word :=
  feistelRounds (roundFunction .cast128 (some sboxT) e.km e.kr) ((List.finRange 16).take n) (0x01234567, 0x89ABCDEF)

/-- `EncryptsBlock`, with 12 and with 16 rounds. -/
theorem witness_encryptsBlock (e : Engine) (h : e = engine5 ∨ e = engine16) :
    (block paramsT e []).engines[0]? = some e ∧ e.inited = true ∧
      pairs e 0 = (be32 0x01 0x23 0x45 0x67, be32 0x89 0xAB 0xCD 0xEF) ∧
      ∀ r : Fin 16, pairs e (r.val + 1) =
        ((pairs e r.val).2,
          (pairs e r.val).1 ^^^ roundFunction paramsT.family paramsT.sbox e.km e.kr r (pairs e r.val).2) := by
  obtain rfl | rfl := h <;> exact ⟨rfl, rfl, by decide +kernel, by decide +kernel⟩

/-- `DecryptsBlock`, on the 12-round ciphertext of section 3.3: the pairs, each exchanged, backward. -/
theorem witness_decryptsBlock :
    (block paramsT engine5 []).engines[0]? = some engine5 ∧ engine5.inited = true ∧
      (pairs engine5 (if engine5.r16 then 16 else 12)).swap = (be32 0x38 0xA2 0x3C 0xEA, be32 0x37 0x7D 0xB0 0x3E) ∧
      ∀ r : Fin 16, (pairs engine5 r.val).swap =
        ((pairs engine5 (r.val + 1)).swap.2,
          (pairs engine5 (r.val + 1)).swap.1 ^^^
            roundFunction paramsT.family paramsT.sbox engine5.km engine5.kr r (pairs engine5 (r.val + 1)).swap.2) :=
  ⟨rfl, rfl, by decide +kernel, by decide +kernel⟩

/-- `BlockTestsInOrder`, first clause, on a block of a wrong length too. -/
theorem witness_blockTests_notInit :
    (block paramsT Engine.reset []).engines[0]? = some Engine.reset ∧ Engine.reset.inited = false ∧
      ([] : List Byte).length ≠ 8 := ⟨rfl, rfl, by decide⟩

/-- `BlockTestsInOrder`, second clause: 0, 7, 9 and 16 bytes. -/
theorem witness_blockTests_length (n : Nat) (h : n ∈ [0, 7, 9, 16]) :
    (block paramsT engine16 []).engines[0]? = some engine16 ∧ engine16.inited = true ∧
      (List.replicate n (0 : Byte)).length ≠ 8 := by
  refine ⟨rfl, rfl, ?_⟩
  rw [List.length_replicate]
  rintro rfl
  exact absurd h (by decide)

/-- `CipherRoundTrip`: two states whose engines differ in `FENC`, on different ports. -/
theorem witness_roundTrip :
    let s := block paramsT engine16 []
    let e' := keyed false true km16 kr16
    let s' := { block (params (some sboxT) .rederive) engine5 [] with engines := [engine5, e'], port := 1 }
    s.engines[s.port]? = some engine16 ∧ s'.engines[s'.port]? = some e' ∧ engine16.inited = true ∧ e'.inited = true ∧
      e'.km = engine16.km ∧ e'.kr = engine16.kr ∧ e'.r16 = engine16.r16 ∧ s'.cfg.sbox = s.cfg.sbox ∧
      s'.cfg.family = s.cfg.family ∧ data.length = 8 :=
  ⟨rfl, rfl, rfl, rfl, rfl, rfl, rfl, rfl, rfl, rfl⟩

/-- `CipherReadsOnlyItsInputs`: configurations whose tables differ in table 4. -/
theorem witness_cipherReads :
    let S' := sboxT.set 4 (Vector.replicate 256 0)
    let s := block paramsT engine16 []
    let s' := block (params (some S') .rederive) (keyed false true km16 kr16) []
    s.engines[s.port]? = some engine16 ∧ s'.engines[s'.port]? = some (keyed false true km16 kr16) ∧
      s'.cfg.family = s.cfg.family ∧
      ∀ (t : Fin 8) (b : Byte), t.val < 4 → tableRead s'.cfg.sbox t b = tableRead s.cfg.sbox t b := by
  refine ⟨rfl, rfl, rfl, fun t b ht => ?_⟩
  have : t.val ≠ 4 := by omega
  simp [block, paramsT, params, tableRead, this.symm]

/-- `ZeroTablesExchangeHalves`. -/
theorem witness_zeroTables :
    (block (params (some sboxZero) .reject) engine16 []).engines[0]? = some engine16 ∧ engine16.inited = true ∧
      (params (some sboxZero) .reject).sbox = some sboxZero ∧
      ∀ (t : Fin 8) (b : Fin 256), t.val < 4 → sboxZero[t.val][b.val] = 0 :=
  ⟨rfl, rfl, rfl, fun _ _ _ => by simp [sboxZero]⟩

/-! ### Witnesses: the field ciphers and `STAT` -/

/-- `PasswordCipherAnswers`, `SerialCipherAnswers`: an engine, and the two operands the statement names. -/
theorem witness_fieldCiphers :
    (block paramsT Engine.reset []).engines[0]? = some Engine.reset ∧
      (∃ n : Nat, n = min (200 : Byte).toNat (min (List.replicate 40 (0x41 : Byte)).length 32)) ∧
      ∃ n : Nat, n = min (5 : Half).toNat (min [(0x84 : Byte), 0x84].length paramsT.serCap) :=
  ⟨rfl, ⟨_, rfl⟩, _, rfl⟩

/-- `PasswordIndexMappings`, last clauses: the last index, and two keys that agree at the multiples of 4 only. -/
theorem witness_indexMappings :
    31 ≤ 31 ∧ (∀ j : Fin 32, j.val % 4 = 0 → keyA[j.val] = (keyA.set 1 0)[j.val]) ∧ keyA ≠ keyA.set 1 0 := by
  decide +kernel

/-- `PasswordNullsStripped`: a declared size of 0 (the source's property), and bytes that XOR to null. -/
theorem witness_nullsStripped :
    (0 : Byte) = 0 ∧ (0x41 : Byte) ≠ 0 ∧
      [(0 : Byte), 0] = passwordBytes keyA keyB 0 ([0xEF, 0xE0].take (processed 2 2 32)) := by decide +kernel

/-- `SerialSpacesStripped`. -/
theorem witness_spacesStripped :
    [(0x9B : Byte), 0x20, 0x41] = ([0xFF, 0x84, 0xA5].take (processed 3 3 65535)).map (fun b => b + 156) ∧
      (0x41 : Byte) ≠ 0x20 := by decide

/-- `FieldCiphersIgnoreTail`: a declared length above the length of the buffer, that below the cap. -/
theorem witness_declaredAboveActual :
    (block paramsT Engine.reset []).engines[0]? = some Engine.reset ∧ [(0x41 : Byte)].length < (2 : Byte).toNat ∧
      [(0x41 : Byte)].length < 32 ∧ [(0x41 : Byte)].length < (2 : Half).toNat ∧
      [(0x41 : Byte)].length < paramsT.serCap := ⟨rfl, by decide, by decide, by decide, by decide⟩

/-- `FieldCiphersIgnoreTail`: the declared length, and the cap, exactly reached. -/
theorem witness_ignoreTail :
    (block { paramsT with serCap := 2 } Engine.reset []).engines[0]? = some Engine.reset ∧
      ((3 : Byte).toNat ≤ [(0x41 : Byte), 0x42, 0x43].length ∨ 32 ≤ [(0x41 : Byte), 0x42, 0x43].length) ∧
      ((200 : Byte).toNat ≤ (List.replicate 32 (0 : Byte)).length ∨ 32 ≤ (List.replicate 32 (0 : Byte)).length) ∧
      ((3 : Half).toNat ≤ [(0x41 : Byte), 0x42, 0x43].length ∨
        ({ paramsT with serCap := 2 } : Params).serCap ≤ [(0x41 : Byte), 0x42, 0x43].length) ∧
      ({ paramsT with serCap := 2 } : Params).serCap ≤ [(0x41 : Byte), 0x42].length := by decide +kernel

/-- `FieldCiphersAreStateless`: before `INIT` without tables, and after it with them, on different ports. -/
theorem witness_stateless :
    let s := block (params none .reject) Engine.reset []
    let s' := { block paramsT engine5 [] with engines := [engine5, engine16], port := 1 }
    s.engines[s.port]? = some Engine.reset ∧ s'.engines[s'.port]? = some engine16 ∧
      s'.cfg.pwkeyA = s.cfg.pwkeyA ∧ s'.cfg.pwkeyB = s.cfg.pwkeyB ∧ s'.cfg.serCap = s.cfg.serCap ∧
      [(0x41 : Byte), 0x42][0]? = [(0x41 : Byte), 0x43][0]? := ⟨rfl, rfl, rfl, rfl, rfl, rfl⟩

/-- `StatusAnswers`. -/
theorem witness_statusAnswers : (block paramsT engine5 []).engines[0]? = some engine5 := rfl

/-- The engine that an `INIT` leaves keeps the invariant of an engine. -/
theorem init_engine_inv (cfg : Params) (fe : Bool) (key : List Byte) (ht : cfg.tblOk = true) (h1 : 1 ≤ key.length)
    (h16 : key.length ≤ 16) : (initEngine cfg fe key).Inv cfg := by
  refine ⟨fun _ => ⟨ht, key, h1, h16, rfl, rfl, ?_⟩, nofun⟩
  simp [initEngine, roundFlag]

/-- A block whose engine 0 an `INIT` has left keeps the invariant. -/
theorem init_block_inv (fe : Bool) (actions : List HostAction) :
    (block paramsT (initEngine paramsT fe key5) actions).Inv := by
  refine ⟨rfl, fun e he => ?_⟩
  simp only [block, List.mem_cons, List.not_mem_nil, or_false] at he
  obtain rfl | rfl := he
  · exact init_engine_inv _ _ _ rfl (by decide) (by decide)
  · exact reset_engine_inv _

/-- `StatusValues`: no tables (as in `witness_withoutTables`); tables, before `INIT` and after it. -/
theorem witness_statusValues :
    (block paramsT (initEngine paramsT true key5) []).Inv ∧ paramsT.sbox ≠ none ∧
      Engine.reset ∈ (block paramsT (initEngine paramsT true key5) []).engines ∧ Engine.reset.inited = false ∧
      initEngine paramsT true key5 ∈ (block paramsT (initEngine paramsT true key5) []).engines ∧
      (initEngine paramsT true key5).inited = true :=
  ⟨init_block_inv _ _, nofun, .tail _ (.head _), rfl, .head _, rfl⟩

/-! ### Witnesses: the whole machine -/

/-- `CommandFrame`, for a command that writes and one that does not. -/
theorem witness_commandFrame :
    (∃ t, exec (.init true key5) (block paramsT Engine.reset []) = .next t) ∧
      (∃ t, exec .stat (block paramsT engine5 []) = .next t) ∧ ∀ fe key, Instr.stat ≠ .init fe key :=
  ⟨⟨_, rfl⟩, ⟨_, rfl⟩, nofun⟩

/-- `RejectIsPrecise`, `RejectsAreNotSticky`: a reject, with a frame for the other port after it. -/
theorem witness_reject :
    let s := block paramsT Engine.reset [.present 0 [0x02, 0x00], .present 1 [0x06]]
    s.Accepts 0 [0x02, 0x00] (.present 1 [0x06] :: []) Engine.reset ∧ 1 < s.engines.length ∧
      ∃ t, step s = .next t ∧ t.outputs = s.outputs ++ [⟨0, [0x05, 0x00, 0x00]⟩] ∧
        [(0x05 : Byte), 0x00, 0x00].head? ≠ some 0x00 :=
  ⟨⟨rfl, rfl, rfl⟩, by decide, _, rfl, by decide +kernel, by decide⟩

/-- `EncryptAfterInit`. -/
theorem witness_encryptAfterInit :
    (block paramsT Engine.reset [.present 0 (encode (.init true key5)), .present 0 (encode (.enc data))]).Accepts 0
        (encode (.init true key5)) [.present 0 (encode (.enc data))] Engine.reset ∧
      paramsT.sbox ≠ none ∧ 1 ≤ key5.length ∧ key5.length ≤ 16 ∧ Engine.reset.inited = false ∧
      splitBlock data = some (0x01234567, 0x89ABCDEF) :=
  ⟨⟨rfl, rfl, rfl⟩, nofun, by decide, by decide, rfl, by decide⟩

/-- `OneResponsePerFrame`: frames for both ports. -/
theorem witness_oneResponse :
    let fs : List (Nat × Frame) := [(1, [0x06]), (0, []), (1, [0xFF])]
    let s := block paramsT engine5 [.present 1 [0x06], .present 0 [], .present 1 [0xFF]]
    s.inReset = false ∧ (∀ x ∈ fs, x.1 < s.engines.length) ∧
      s.inputs = fs.map (fun x => HostAction.present x.1 x.2) := ⟨rfl, by decide, rfl⟩

/-- `ResponseIsFunctionOfEngine`: the same engine behind another port of another state. -/
theorem witness_responseFunction :
    let s := block paramsT engine5 [.present 0 [0x06]]
    let s' := { block paramsT engine16 [.present 1 [0x06], .releaseReset] with engines := [engine16, engine5] }
    s.Accepts 0 [0x06] [] engine5 ∧ s'.Accepts 1 [0x06] [.releaseReset] engine5 ∧ s'.cfg = s.cfg :=
  ⟨⟨rfl, rfl, rfl⟩, ⟨rfl, rfl, rfl⟩, rfl⟩

/-- `RoundKeysDoNotShow`. -/
theorem witness_roundKeysDoNotShow :
    let e' := keyed false false km16 kr16
    (∀ data, Instr.stat ≠ .enc data ∧ Instr.stat ≠ .dec data) ∧
      (block paramsT engine5 []).engines[0]? = some engine5 ∧ (block paramsT e' []).engines[0]? = some e' ∧
      (block paramsT e' []).cfg = (block paramsT engine5 []).cfg ∧ e'.inited = engine5.inited ∧
      e'.fenc = engine5.fenc ∧ e'.r16 = engine5.r16 :=
  ⟨fun _ => ⟨nofun, nofun⟩, rfl, rfl, rfl, rfl, rfl, rfl⟩

/-- `OnlyResetClearsInited`. -/
theorem witness_onlyReset :
    let s := { block paramsT engine16 [.releaseReset] with inReset := true }
    ∃ t e', step s = .next t ∧ s.engines[0]? = some engine16 ∧ t.engines[0]? = some e' ∧ engine16.inited = true ∧
      e'.inited = false := ⟨_, _, rfl, rfl, rfl, rfl, rfl⟩

/-- `ConfigurationIsConstant`. -/
theorem witness_configuration :
    ∃ t, Host.Core.run Sys2Proof.core 2 (block paramsT engine16 [.present 0 [0x06], .assertReset []]) = .next t :=
  ⟨_, rfl⟩

/-- `InvariantKept`: a block with an initialised engine, and a command to come. -/
theorem witness_invariantKept :
    (block paramsT (initEngine paramsT true key5) [.present 0 [0x06]]).Inv ∧
      ∃ t, step (block paramsT (initEngine paramsT true key5) [.present 0 [0x06]]) = .next t :=
  ⟨init_block_inv _ _, _, rfl⟩

/-- `RoundKeysAreOfLastKey`: a fresh engine about to be keyed. -/
theorem witness_lastKey :
    let s := block paramsT Engine.reset [.present 0 (encode (.init true key5))]
    s.Keyed 0 none ∧ s.lastKey 0 none = some key5 ∧ ∃ t, step s = .next t := by
  refine ⟨fun e he => ?_, by decide +kernel, _, rfl⟩
  obtain rfl : Engine.reset = e := by simpa [block] using he
  exact ⟨rfl, nofun⟩

/-- `RunsNeverStop`. -/
theorem witness_portsExist : (block paramsT engine16 [.present 1 [0xFF], .releaseReset]).PortsExist := by
  intro k f h
  simp [block] at h
  obtain ⟨rfl, -⟩ := h
  decide

/-- `EnginesAreIndependent`: frames for both ports. -/
theorem witness_independent :
    let s := block paramsT engine5 [.present 0 [0x06], .present 1 [0x06]]
    (∃ t, Host.Core.run Sys2Proof.core s.inputs.length s = .next t) ∧
      ∃ u, Host.Core.run Sys2Proof.core (actionsOf 1 s.inputs).length { s with inputs := actionsOf 1 s.inputs } =
        .next u := ⟨⟨_, rfl⟩, _, rfl⟩

/-- `EnginesAreIndependent`: a reset between the frames, with a command in progress. -/
theorem witness_independent_reset :
    let s := block paramsT engine5 [.present 0 [0x06], .assertReset [(0, [0x06])], .releaseReset, .present 1 [0x06]]
    (∃ t, Host.Core.run Sys2Proof.core s.inputs.length s = .next t) ∧
      ∃ u, Host.Core.run Sys2Proof.core (actionsOf 1 s.inputs).length { s with inputs := actionsOf 1 s.inputs } =
        .next u := ⟨⟨_, rfl⟩, _, rfl⟩

/-- `AbsentPortStops`: the first port that is not there. -/
theorem witness_absentPort :
    let s := block paramsT engine16 [.present 2 [0x06]]
    s.inputs = .present 2 [0x06] :: [] ∧ s.inReset = false ∧ s.engines.length ≤ 2 := ⟨rfl, rfl, by decide⟩

end Sys2Proof.Tests
end

section
/-! The operands of `spec/00_scope.md` section 5: rotation as a sum (R11), the slices of a word and the byte orders
(R9, R12). -/

namespace Sys2Proof.Machine

/-- R11: a rotation is a sum, as the bits shifted up and the bits that come back below do not overlap. -/
theorem rol32_toNat (v : Word) (n : Rotation) :
    (rol32 v n).toNat = v.toNat * 2 ^ n.toNat % 2 ^ 32 + v.toNat / 2 ^ (32 - n.toNat) := by
  have hn32 : n.toNat < 32 := n.isLt
  have hpow : 2 ^ 32 = 2 ^ n.toNat * 2 ^ (32 - n.toNat) := by
    rw [← Nat.pow_add, Nat.add_sub_cancel' hn32.le]
  have hhigh : v.toNat * 2 ^ n.toNat % 2 ^ 32 = 2 ^ n.toNat * (v.toNat % 2 ^ (32 - n.toNat)) := by
    rw [hpow, Nat.mul_comm, Nat.mul_mod_mul_left]
  have hlow : v.toNat / 2 ^ (32 - n.toNat) < 2 ^ n.toNat :=
    Nat.div_lt_of_lt_mul (Nat.mul_comm _ _ ▸ hpow ▸ v.isLt)
  rw [rol32, BitVec.toNat_rotateLeft, Nat.mod_eq_of_lt hn32, Nat.shiftLeft_eq, Nat.shiftRight_eq_div_pow, hhigh,
    Nat.two_pow_add_eq_or_of_lt hlow]

/-- R11: rotation by 0 is the identity. -/
@[simp] theorem rol32_zero (v : Word) : rol32 v 0 = v := by
  have h0 : (0 : Rotation).toNat = 0 := rfl
  apply BitVec.eq_of_toNat_eq
  rw [rol32_toNat, h0]
  omega

/-! R9: the slices of a word as quotients and remainders. -/

theorem byte0_toNat (w : Word) : (byte0 w).toNat = w.toNat / 2 ^ 24 := by
  simp only [byte0, BitVec.extractLsb'_toNat, Nat.shiftRight_eq_div_pow]
  omega

theorem byte1_toNat (w : Word) : (byte1 w).toNat = w.toNat / 2 ^ 16 % 256 := by
  simp only [byte1, BitVec.extractLsb'_toNat, Nat.shiftRight_eq_div_pow]

theorem byte2_toNat (w : Word) : (byte2 w).toNat = w.toNat / 2 ^ 8 % 256 := by
  simp only [byte2, BitVec.extractLsb'_toNat, Nat.shiftRight_eq_div_pow]

theorem byte3_toNat (w : Word) : (byte3 w).toNat = w.toNat % 256 := by
  simp only [byte3, BitVec.extractLsb'_toNat, Nat.shiftRight_zero]

/-- R12: `be32` as a sum, first byte most significant. -/
theorem be32_toNat (b0 b1 b2 b3 : Byte) :
    (be32 b0 b1 b2 b3).toNat = b0.toNat * 2 ^ 24 + b1.toNat * 2 ^ 16 + b2.toNat * 2 ^ 8 + b3.toNat := by
  simp only [be32, append_byte_toNat]
  omega

/-- R12: the bytes of the word that four bytes make are those bytes. -/
theorem bytesOf32_be32 (b0 b1 b2 b3 : Byte) : bytesOf32 (be32 b0 b1 b2 b3) = [b0, b1, b2, b3] := by
  simp only [bytesOf32, List.cons.injEq, and_true, ← BitVec.toNat_inj, byte0_toNat, byte1_toNat, byte2_toNat,
    byte3_toNat, be32_toNat]
  omega

/-- Settles O1: both clauses from the one sum `rol32_toNat`. -/
theorem rotationFollowsRule : Obligations.RotationFollowsRule :=
  fun v => ⟨rol32_zero v, fun n _ => rol32_toNat v n⟩

/-- Settles O2, from the sums for the slices, `be32` and `le16`, and the two inverse laws. -/
theorem wordsAndBytes : Obligations.WordsAndBytes :=
  ⟨fun w => ⟨byte0_toNat w, byte1_toNat w, byte2_toNat w, byte3_toNat w⟩,
    fun b0 b1 b2 b3 => ⟨be32_toNat b0 b1 b2 b3, bytesOf32_be32 b0 b1 b2 b3⟩,
    fun w => ⟨rfl, be32_bytes w⟩, le16_toNat⟩

end Sys2Proof.Machine
end

section
/-! Determinism of the response (`spec/10_state.md` R25). -/

namespace Sys2Proof.Machine

/-- Settles O49: a frame stands for one command (`frameCommand`), and each step applies it to the configuration and the
engine behind the port, which are the same in both states. -/
theorem responseIsFunctionOfEngine : Obligations.ResponseIsFunctionOfEngine := by
  intro s s' k k' f rest rest' e hs hs' hcfg
  have hstep' : step s' = .next ((s'.accepted k' rest').answered (frameCommand f s.cfg e).1
      (responseFrame (frameCommand f s.cfg e).2)) := hcfg ▸ step_accepts hs'
  exact ⟨_, _, step_accepts hs, hstep'⟩

end Sys2Proof.Machine
end

section
/-! The frame check (`spec/30_encoding.md` R49, R95): the decoder's answer to a frame with a legal opcode, format by
format, against the offsets by which `malformed` is written. -/

namespace Sys2Proof.Machine

@[simp] theorem legalOpcode_cons (op : Byte) (rest : Frame) :
    legalOpcode (op :: rest) ↔ 1 ≤ op.toNat ∧ op.toNat ≤ 6 := by
  simp [legalOpcode]

/-- R47: the legal opcodes are those of the six commands. -/
theorem opcode_cases {op : Byte} (h1 : 1 ≤ op.toNat) (h6 : op.toNat ≤ 6) :
    op = opInit ∨ op = opEnc ∨ op = opDec ∨ op = opPwdec ∨ op = opSerdec ∨ op = opStat := by
  simp only [← BitVec.toNat_inj, opInit, opEnc, opDec, opPwdec, opSerdec, opStat, BitVec.ofNat_eq_ofNat,
    BitVec.toNat_ofNat]
  omega

/-! R41, R47: the opcode selects the format. -/

@[simp] theorem decode_opInit (rest : Frame) : decode (opInit :: rest) = decodeK rest := rfl

@[simp] theorem decode_opEnc (rest : Frame) : decode (opEnc :: rest) = decodeB .enc rest := rfl

@[simp] theorem decode_opDec (rest : Frame) : decode (opDec :: rest) = decodeB .dec rest := rfl

@[simp] theorem decode_opPwdec (rest : Frame) : decode (opPwdec :: rest) = decodeP rest := rfl

@[simp] theorem decode_opSerdec (rest : Frame) : decode (opSerdec :: rest) = decodeS rest := rfl

@[simp] theorem decode_opStat (rest : Frame) : decode (opStat :: rest) = decodeN rest := rfl

/-! R41, R49: and with it the header length and the place of the length field. -/

@[simp] theorem frameHeader_opInit (rest : Frame) :
    frameHeader (opInit :: rest) = (3, (rest.getD 1 0).toNat) := rfl

@[simp] theorem frameHeader_opEnc (rest : Frame) :
    frameHeader (opEnc :: rest) = (2, (rest.getD 0 0).toNat) := rfl

@[simp] theorem frameHeader_opDec (rest : Frame) :
    frameHeader (opDec :: rest) = (2, (rest.getD 0 0).toNat) := rfl

@[simp] theorem frameHeader_opPwdec (rest : Frame) :
    frameHeader (opPwdec :: rest) = (3, (rest.getD 1 0).toNat) := rfl

@[simp] theorem frameHeader_opSerdec (rest : Frame) :
    frameHeader (opSerdec :: rest) = (5, (rest.getD 2 0).toNat + 256 * (rest.getD 3 0).toNat) := rfl

@[simp] theorem frameHeader_opStat (rest : Frame) : frameHeader (opStat :: rest) = (1, 0) := rfl

/-- The header check rejects a frame whose counted bytes are not as many as its length field says. -/
theorem counted_of_ne {n : Nat} {body : List Byte} {i : Instr} (h : body.length ≠ n) :
    counted n body i = .rejected .lengthMismatch := if_neg h

/-- A direction byte that is not legal is neither 0 nor 1. -/
theorem directionOf_eq_none {fe : Byte} : directionOf fe = none ↔ fe ≠ 0 ∧ fe ≠ 1 := by
  unfold directionOf
  split <;> simp_all

/-- With a legal opcode, the length test of R49 contains the header test. -/
theorem malformed_iff {f : Frame} (hl : legalOpcode f) :
    malformed f ↔ f.length ≠ (frameHeader f).1 + (frameHeader f).2 ∨
      (f.getD 0 0 = 1 ∧ f.getD 1 0 ≠ 0 ∧ f.getD 1 0 ≠ 1) := by
  have hne : f ≠ [] := by
    obtain ⟨op, rest, rfl, -⟩ := hl
    exact List.cons_ne_nil op rest
  simp only [malformed, hne, hl, true_and, false_or]
  exact ⟨fun h => h.elim (fun hshort => .inl (by omega)) id, .inr⟩

/-- The frame check of R49 decides the decoder's answer: a malformed frame is rejected for a reason that R95 answers
with `E_FRAME`, and any other is a command. -/
def FrameChecked (f : Frame) : Prop :=
  (malformed f ∧ ∃ err, decode f = .rejected err ∧ frameStatus err = .eFrame) ∨
    (¬ malformed f ∧ ∃ i, decode f = .command i)

/-- A frame that ends within its header is malformed. -/
theorem frameChecked_of_short {f : Frame} (hl : legalOpcode f) (hd : decode f = .rejected .shortHeader)
    (hlen : f.length < (frameHeader f).1) : FrameChecked f :=
  .inl ⟨(malformed_iff hl).mpr (.inl (by omega)), _, hd, rfl⟩

/-- With the header there and no illegal direction, the decoder's count is the length test. -/
theorem frameChecked_of_counted {f : Frame} {body : List Byte} {i : Instr} (hl : legalOpcode f)
    (hd : decode f = counted (frameHeader f).2 body i) (hlen : f.length = (frameHeader f).1 + body.length)
    (hfe : f.getD 0 0 = 1 → f.getD 1 0 = 0 ∨ f.getD 1 0 = 1) : FrameChecked f := by
  by_cases hn : body.length = (frameHeader f).2
  · refine .inr ⟨?_, i, hd.trans (counted_eq_command.mpr ⟨hn, rfl⟩)⟩
    rw [malformed_iff hl]
    rintro (hlen' | ⟨hop, h0, h1⟩)
    · omega
    · exact (hfe hop).elim h0 h1
  · exact .inl ⟨(malformed_iff hl).mpr (.inl (by omega)), _, hd.trans (counted_of_ne hn), rfl⟩

theorem frameChecked_empty : FrameChecked [] := .inl ⟨.inl rfl, _, rfl, rfl⟩

/-- Format `K`, the only one with an operand byte that can be illegal (R42). -/
theorem frameChecked_opInit (rest : Frame) : FrameChecked (opInit :: rest) := by
  have hl : legalOpcode (opInit :: rest) := (legalOpcode_cons _ _).mpr (by decide)
  match rest with
  | [] | [_] => exact frameChecked_of_short hl rfl (by simp)
  | fe :: klen :: key =>
    cases hb : directionOf fe with
    | none =>
      exact .inl ⟨(malformed_iff hl).mpr (.inr ⟨rfl, directionOf_eq_none.mp hb⟩), .badDirection,
        by simp [decodeK, hb], rfl⟩
    | some b =>
      exact frameChecked_of_counted (body := key) (i := .init b key) hl (by simp [decodeK, hb])
        (by simp; omega) fun _ => (directionOf_eq_some.mp hb).imp And.left And.left

/-- Format `B`, for any opcode that selects it (R43). -/
theorem frameChecked_formatB {op : Byte} {mk : List Byte → Instr} {rest : Frame} (hl : legalOpcode (op :: rest))
    (hd : decode (op :: rest) = decodeB mk rest) (hh : frameHeader (op :: rest) = (2, (rest.getD 0 0).toNat))
    (hop : op ≠ 1) : FrameChecked (op :: rest) := by
  match rest with
  | [] => exact frameChecked_of_short hl hd (by simp [hh])
  | blen :: data =>
    exact frameChecked_of_counted (body := data) hl (by rw [hd, hh]; rfl) (by simp [hh]; omega)
      fun h => absurd h hop

/-- Format `P` (R44). -/
theorem frameChecked_opPwdec (rest : Frame) : FrameChecked (opPwdec :: rest) := by
  have hl : legalOpcode (opPwdec :: rest) := (legalOpcode_cons _ _).mpr (by decide)
  match rest with
  | [] | [_] => exact frameChecked_of_short hl rfl (by simp)
  | dlen :: alen :: buf =>
    exact frameChecked_of_counted (body := buf) hl rfl (by simp; omega) (by simp [opPwdec])

/-- Format `S`, whose length field is two bytes (R45). -/
theorem frameChecked_opSerdec (rest : Frame) : FrameChecked (opSerdec :: rest) := by
  have hl : legalOpcode (opSerdec :: rest) := (legalOpcode_cons _ _).mpr (by decide)
  match rest with
  | [] | [_] | [_, _] | [_, _, _] => exact frameChecked_of_short hl rfl (by simp)
  | d0 :: d1 :: a0 :: a1 :: buf =>
    exact frameChecked_of_counted (body := buf) (i := .serdec (le16 d0 d1) buf) hl
      (by simp [decodeS, le16_toNat]) (by simp; omega) (by simp [opSerdec])

/-- Format `N`, with nothing counted (R46). -/
theorem frameChecked_opStat (rest : Frame) : FrameChecked (opStat :: rest) :=
  frameChecked_of_counted (body := rest) ((legalOpcode_cons _ _).mpr (by decide)) rfl (by simp; omega)
    (by simp [opStat])

/-- R49: the frame check of every frame with a legal opcode. -/
theorem frameChecked_of_legalOpcode {f : Frame} (hl : legalOpcode f) : FrameChecked f := by
  obtain ⟨op, rest, rfl, h1, h6⟩ := id hl
  obtain rfl | rfl | rfl | rfl | rfl | rfl := opcode_cases h1 h6
  · exact frameChecked_opInit rest
  · exact frameChecked_formatB hl (decode_opEnc rest) (frameHeader_opEnc rest) (by decide)
  · exact frameChecked_formatB hl (decode_opDec rest) (frameHeader_opDec rest) (by decide)
  · exact frameChecked_opPwdec rest
  · exact frameChecked_opSerdec rest
  · exact frameChecked_opStat rest

/-- R49, R95: the rejection of a malformed frame. -/
theorem decode_of_malformed {f : Frame} (hm : malformed f) :
    ∃ err, decode f = .rejected err ∧ frameStatus err = .eFrame := by
  have hc : FrameChecked f := by
    obtain rfl | ⟨hl, -⟩ := id hm
    · exact frameChecked_empty
    · exact frameChecked_of_legalOpcode hl
  exact hc.elim And.right fun h => absurd hm h.1

/-- A frame that the decoder rejects answers the status of the rejection, and its engine is as before. -/
theorem step_of_rejected {s : State} {k : Nat} {f : Frame} {rest : List HostAction} {e : Engine} {err : FrameError}
    (h : s.Accepts k f rest e) (hd : decode f = .rejected err) :
    step s = .next ((s.accepted k rest).answered e [statusCode (frameStatus err), 0, 0]) := by
  simp [step_accepts h, frameCommand, hd, rejectFrame]

/-- Settles O7: format by format (`frameChecked_of_legalOpcode`) the decoder agrees with the offsets of R49, and a
rejected frame runs no command. -/
theorem malformedFrameAnswersFrame : Obligations.MalformedFrameAnswersFrame := by
  refine ⟨fun s k f rest e ha hm => ?_, fun f hl hm => ?_⟩
  · obtain ⟨err, hd, hs⟩ := decode_of_malformed hm
    have hstep := step_of_rejected ha hd
    rwa [hs] at hstep
  · exact (frameChecked_of_legalOpcode hl).elim (fun h => absurd h.1 hm) And.right

end Sys2Proof.Machine
end

section
/-! The key schedule (`spec/40_init_keyschedule.md` sections 2 to 4): the padded key (R61), the two transforms (R64,
R65), the eight stages (R63), the emit patterns (R66) and the round keys (R67, R68). -/

namespace Sys2Proof.Machine

/-! ### The padded key -/

@[simp] theorem padKey_getElem (key : List Byte) {i : Nat} (hi : i < 16) : (padKey key)[i] = key.getD i 0 := by
  simp [padKey]

/-- Settles O18: the default of `List.getD` is the zero that pads. -/
theorem paddedKeyLayout : Obligations.PaddedKeyLayout := by
  intro key i
  refine ⟨fun h => ?_, fun h => ?_⟩
  · rw [padKey_getElem, List.getD_eq_getElem _ _ h]
  · rw [padKey_getElem, List.getD_eq_default _ _ h]

/-- A zero byte after the key is one that the padding puts there anyway. -/
theorem padKey_append_zero (key : List Byte) : padKey (key ++ [0]) = padKey key := by
  refine Vector.ext fun i hi => ?_
  rw [padKey_getElem, padKey_getElem]
  obtain h | h := Nat.lt_or_ge i key.length
  · exact List.getD_append _ _ _ _ h
  · rw [List.getD_append_right _ _ _ _ h, List.getD_eq_default _ _ h]
    cases i - key.length <;> rfl

/-- The schedule reads the key through the padded key alone. -/
theorem scheduleWords_congr (sbox : Option Tables) {key key' : List Byte} (h : padKey key = padKey key') :
    scheduleWords sbox key = scheduleWords sbox key' := by
  simp only [scheduleWords, h]

/-! ### The transforms

`XZ` and `ZX` differ only in what they read of the array they start from. In both, lines 2 to 4 look up the same bytes
of the lines before them. -/

/-- The array of four lines: the first is `v`, and each later one is XORed with a lookup of bytes of the array as the
lines before it left it. -/
def chainedLines (sbox : Option Tables) (v p1 q1 p2 q2 p3 q3 : Word) : Array16 :=
  let a := putWord (Vector.replicate 16 0) 0 v
  let a := putWord a 1 (p1 ^^^ mix sbox a[0x0] a[0x2] a[0x1] a[0x3] ^^^ q1)
  let a := putWord a 2 (p2 ^^^ mix sbox a[0x7] a[0x6] a[0x5] a[0x4] ^^^ q2)
  putWord a 3 (p3 ^^^ mix sbox a[0xA] a[0x9] a[0xB] a[0x8] ^^^ q3)

theorem transformXZ_eq (sbox : Option Tables) (x : Array16) :
    transformXZ sbox x =
      chainedLines sbox (wordAt x 0 ^^^ mix sbox x[0xD] x[0xF] x[0xC] x[0xE] ^^^ tableRead sbox 6 x[0x8])
        (wordAt x 2) (tableRead sbox 7 x[0xA]) (wordAt x 3) (tableRead sbox 4 x[0x9])
        (wordAt x 1) (tableRead sbox 5 x[0xB]) := rfl

theorem transformZX_eq (sbox : Option Tables) (z : Array16) :
    transformZX sbox z =
      chainedLines sbox (wordAt z 2 ^^^ mix sbox z[0x5] z[0x7] z[0x4] z[0x6] ^^^ tableRead sbox 6 z[0x0])
        (wordAt z 0) (tableRead sbox 7 z[0x2]) (wordAt z 1) (tableRead sbox 4 z[0x1])
        (wordAt z 3) (tableRead sbox 5 z[0x3]) := rfl

/-- Each line holds over the finished array, as a later line leaves the words before it. -/
theorem chainedLines_words {sbox : Option Tables} {v p1 q1 p2 q2 p3 q3 : Word} {a : Array16}
    (h : chainedLines sbox v p1 q1 p2 q2 p3 q3 = a) :
    wordAt a 0 = v ∧
      wordAt a 1 = p1 ^^^ mix sbox a[0x0] a[0x2] a[0x1] a[0x3] ^^^ q1 ∧
      wordAt a 2 = p2 ^^^ mix sbox a[0x7] a[0x6] a[0x5] a[0x4] ^^^ q2 ∧
      wordAt a 3 = p3 ^^^ mix sbox a[0xA] a[0x9] a[0xB] a[0x8] ^^^ q3 := by
  subst h
  simp [chainedLines, wordAt_putWord_ne, putWord_getElem_ne]

/-- One line of R64 or R65, its lookup written out. -/
theorem xor_mix_xor (sbox : Option Tables) (p q : Word) (a b c d : Byte) :
    p ^^^ mix sbox a b c d ^^^ q =
      p ^^^ tableRead sbox 4 a ^^^ tableRead sbox 5 b ^^^ tableRead sbox 6 c ^^^ tableRead sbox 7 d ^^^ q := by
  simp only [mix, BitVec.xor_assoc]

/-- Settles O20: `XZ` is an array of chained lines, whose words are bytes of R32. -/
theorem transformXZLines : Obligations.TransformXZLines := by
  intro sbox x z hz
  obtain ⟨hx0, hx1, hx2, hx3⟩ := wordAt_bytes x
  obtain ⟨hz0, hz1, hz2, hz3⟩ := wordAt_bytes z
  have hlines := chainedLines_words ((transformXZ_eq sbox x).symm.trans hz)
  simpa only [xor_mix_xor, hx0, hx1, hx2, hx3, hz0, hz1, hz2, hz3] using hlines

/-- Settles O21: `ZX` is an array of chained lines, whose words are bytes of R32. -/
theorem transformZXLines : Obligations.TransformZXLines := by
  intro sbox z x hx
  obtain ⟨hx0, hx1, hx2, hx3⟩ := wordAt_bytes x
  obtain ⟨hz0, hz1, hz2, hz3⟩ := wordAt_bytes z
  have hlines := chainedLines_words ((transformZX_eq sbox z).symm.trans hx)
  simpa only [xor_mix_xor, hx0, hx1, hx2, hx3, hz0, hz1, hz2, hz3] using hlines

/-! ### The stages, the emit patterns and the round keys -/

/-- Four stages on named arrays: the array they leave, and the words they gather. -/
theorem fourStages_eq {sbox : Option Tables} {x z1 x2 z3 x4 : Array16} (h1 : transformXZ sbox x = z1)
    (h2 : transformZX sbox z1 = x2) (h3 : transformXZ sbox x2 = z3) (h4 : transformZX sbox z3 = x4) :
    fourStages sbox x = (x4, gather (emitA sbox z1) (emitB sbox x2) (emitC sbox z3) (emitD sbox x4)) := by
  simp only [fourStages, h1, h2, h3, h4]

@[simp] theorem keySchedule_masking (sbox : Option Tables) (key : List Byte) :
    (keySchedule .cast128 sbox key).1 = (scheduleWords sbox key).1 := rfl

@[simp] theorem keySchedule_rotation (sbox : Option Tables) (key : List Byte) {i : Nat} (hi : i < 16) :
    (keySchedule .cast128 sbox key).2[i] = ((scheduleWords sbox key).2[i]).setWidth 5 :=
  Vector.getElem_map ..

/-- Settles O22: the second four stages start from the array the first four leave. -/
theorem scheduleRunsEightStages : Obligations.ScheduleRunsEightStages := by
  intro sbox key x0 z1 x2 z3 x4 z5 x6 z7 x8 h0 h1 h2 h3 h4 h5 h6 h7 h8
  have hwords : scheduleWords sbox key =
      (gather (emitA sbox z1) (emitB sbox x2) (emitC sbox z3) (emitD sbox x4),
        gather (emitA sbox z5) (emitB sbox x6) (emitC sbox z7) (emitD sbox x8)) := by
    simp only [scheduleWords, h0, fourStages_eq h1 h2 h3 h4, fourStages_eq h5 h6 h7 h8]
  refine ⟨?_, ?_, keySchedule_masking sbox key, fun i => keySchedule_rotation sbox key i.isLt⟩ <;>
    rw [hwords, gather_toList]

/-- Settles O24: the low five bits are the remainder modulo 32. -/
theorem roundKeysFromScheduleWords : Obligations.RoundKeysFromScheduleWords := by
  intro sbox key i
  refine ⟨by rw [keySchedule_masking], ?_⟩
  rw [keySchedule_rotation sbox key i.isLt, BitVec.toNat_setWidth]

/-- The lookups of one emitted word, with tables. -/
theorem mix_some (S : Tables) (a b c d : Byte) :
    mix (some S) a b c d =
      S[4][a.toNat]'a.isLt ^^^ S[5][b.toNat]'b.isLt ^^^ S[6][c.toNat]'c.isLt ^^^ S[7][d.toNat]'d.isLt := rfl

/-- Settles O23, pattern by pattern: the four entries of `mix_some`, and the one that `tableRead_some` gives. -/
theorem emitPatternWords : Obligations.EmitPatternWords := by
  intro S a S5 S6 S7 S8
  refine ⟨?_, ?_, ?_, ?_⟩
  · simp only [emitA, mix_some, tableRead_some]; rfl
  · simp only [emitB, mix_some, tableRead_some]; rfl
  · simp only [emitC, mix_some, tableRead_some]; rfl
  · simp only [emitD, mix_some, tableRead_some]; rfl

end Sys2Proof.Machine
end

section
/-! `INIT` (`spec/40_init_keyschedule.md` section 1): its tests in their order (R57, R97, R100) and its round count
(R58). -/

namespace Sys2Proof.Machine

/-! The tests of `INIT`, each where it decides. -/

theorem initReject_of_noTables {cfg : Params} (e : Engine) (key : List Byte) (h : cfg.sbox = none) :
    initReject cfg e key = some .eNoTables := by
  simp [initReject, Params.tblOk, h]

theorem initReject_of_keyLength {cfg : Params} (e : Engine) {key : List Byte} (ht : cfg.sbox ≠ none)
    (hk : key.length = 0 ∨ maxKey < key.length) : initReject cfg e key = some .eKeyLen := by
  have htbl : cfg.tblOk = true := Option.isSome_iff_ne_none.mpr ht
  rw [initReject, if_neg (by simp [htbl]), if_pos hk]

theorem initReject_of_reinit {cfg : Params} {e : Engine} {key : List Byte} (ht : cfg.sbox ≠ none)
    (h1 : 1 ≤ key.length) (h16 : key.length ≤ 16) (he : e.inited = true) (hr : cfg.reinit = .reject) :
    initReject cfg e key = some .eReinit := by
  have htbl : cfg.tblOk = true := Option.isSome_iff_ne_none.mpr ht
  have hk : ¬ (key.length = 0 ∨ maxKey < key.length) := by simp only [maxKey]; omega
  rw [initReject, if_neg (by simp [htbl]), if_neg hk, if_pos ⟨he, hr⟩]

/-- Under `REINIT = rederive` the third test is never made. -/
theorem initReject_ne_reinit {cfg : Params} (e : Engine) (key : List Byte) (hr : cfg.reinit = .rederive) :
    initReject cfg e key ≠ some .eReinit := by
  unfold initReject
  split
  · simp
  · split <;> simp [hr]

/-- An `INIT` that a test stops answers its status and leaves the engine. -/
theorem exec_init_of_reject {s : State} {e : Engine} {key : List Byte} {st : Status} (fe : Bool)
    (he : s.engines[s.port]? = some e) (h : initReject s.cfg e key = some st) :
    exec (.init fe key) s = .next (s.answered e [statusCode st, 0, 0]) := by
  simp [exec_of_some _ he, commandOf, initCommand, h]

/-- The status of `INIT`: that of the test that stops it, or `OK`. -/
theorem initCommand_status (fe : Bool) (key : List Byte) (cfg : Params) (e : Engine) :
    (initCommand fe key cfg e).2.status = (initReject cfg e key).getD .ok := by
  unfold initCommand
  cases initReject cfg e key <;> rfl

theorem statusCode_eq_seven {st : Status} (h : statusCode st = 0x07) : st = .eReinit := by
  cases st
  case eReinit => rfl
  all_goals exact absurd h (by decide)

/-- Under `REINIT = rederive` no `INIT` answers the code of `E_REINIT`. -/
theorem initCommand_response_ne_reinit (fe : Bool) (key : List Byte) {cfg : Params} (e : Engine)
    (hr : cfg.reinit = .rederive) : responseFrame (initCommand fe key cfg e).2 ≠ [0x07, 0x00, 0x00] := by
  intro h
  have hcode : statusCode (initCommand fe key cfg e).2.status = 0x07 := by
    simpa using (responseFrame_head _).symm.trans (congrArg List.head? h)
  have hstatus := (initCommand_status fe key cfg e).symm.trans (statusCode_eq_seven hcode)
  cases hi : initReject cfg e key with
  | none => simp [hi] at hstatus
  | some st => exact initReject_ne_reinit e key hr (by simpa [hi] using hstatus)

/-- Settles O15: one test decides in each of the first three clauses, and in the last the third test never does. -/
theorem initTestsInOrder : Obligations.InitTestsInOrder := by
  intro s e fe key he
  refine ⟨fun ht => ?_, fun ht hk => ?_, fun ht h1 h16 hi hr => ?_, fun hr t hexec hout => ?_⟩
  · exact exec_init_of_reject fe he (initReject_of_noTables e key ht)
  · exact exec_init_of_reject fe he (initReject_of_keyLength e ht hk)
  · exact exec_init_of_reject fe he (initReject_of_reinit ht h1 h16 hi hr)
  · obtain rfl : s.answered _ _ = t := Host.Outcome.next.inj ((exec_of_some _ he).symm.trans hexec)
    exact initCommand_response_ne_reinit fe key e hr (by simpa [commandOf] using hout)

/-! The round flag that `INIT` writes (R58). -/

theorem initEngine_r16_eq_false_iff (cfg : Params) (fe : Bool) (key : List Byte) :
    (initEngine cfg fe key).r16 = false ↔ key.length ≤ 10 := by
  simp only [initEngine, roundFlag, decide_eq_false_iff_not]
  omega

theorem initEngine_r16_eq_true_iff (cfg : Params) (fe : Bool) (key : List Byte) :
    (initEngine cfg fe key).r16 = true ↔ 11 ≤ key.length := by
  simp only [initEngine, roundFlag, decide_eq_true_eq]

/-- Settles O17: the count is one comparison with 11, which a zero byte after ten changes; the padded key it leaves
(`padKey_append_zero`). -/
theorem roundCountFromKeyLength : Obligations.RoundCountFromKeyLength := by
  refine ⟨fun cfg fe key => ⟨fun _ h10 => ?_, fun h11 _ => ?_⟩, fun cfg fe key hlen => ?_⟩
  · exact (initEngine_r16_eq_false_iff cfg fe key).mpr h10
  · exact (initEngine_r16_eq_true_iff cfg fe key).mpr h11
  · have hpad := padKey_append_zero key
    have h12 : (initEngine cfg fe key).r16 = false := (initEngine_r16_eq_false_iff cfg fe key).mpr hlen.le
    have h16 : (initEngine cfg fe (key ++ [0])).r16 = true :=
      (initEngine_r16_eq_true_iff cfg fe _).mpr (by simp [hlen])
    exact ⟨hpad, scheduleWords_congr cfg.sbox hpad, by rw [h12]; rfl, by rw [h16]; rfl⟩

end Sys2Proof.Machine
end

section
/-! The block transform (`spec/41_block_transform.md`): the round functions by number (R70 to R74), the round trip
(R79) and what the ciphers read (R80). -/

namespace Sys2Proof.Machine

/-! ### The round functions -/

/-- The entry of table `t` that the byte of `i` from bit `p` up indexes. -/
def slicedEntry (S : Tables) (i : Word) (t : Fin 8) (p : Nat) : Word :=
  S[t.val][i.toNat / 2 ^ p % 256]'(Nat.mod_lt _ (by decide))

/-- A read by a byte is the read by the slice it is. -/
theorem tableRead_eq_slicedEntry {S : Tables} {i : Word} {t : Fin 8} {p : Nat} {b : Byte}
    (h : b.toNat = i.toNat / 2 ^ p % 256) : tableRead (some S) t b = slicedEntry S i t p := by
  simp only [tableRead_some, slicedEntry, h]

@[simp] theorem tableRead_byte0 (S : Tables) (t : Fin 8) (i : Word) :
    tableRead (some S) t (byte0 i) = slicedEntry S i t 24 :=
  tableRead_eq_slicedEntry (by have := byte0_toNat i; omega)

@[simp] theorem tableRead_byte1 (S : Tables) (t : Fin 8) (i : Word) :
    tableRead (some S) t (byte1 i) = slicedEntry S i t 16 :=
  tableRead_eq_slicedEntry (byte1_toNat i)

@[simp] theorem tableRead_byte2 (S : Tables) (t : Fin 8) (i : Word) :
    tableRead (some S) t (byte2 i) = slicedEntry S i t 8 :=
  tableRead_eq_slicedEntry (byte2_toNat i)

@[simp] theorem tableRead_byte3 (S : Tables) (t : Fin 8) (i : Word) :
    tableRead (some S) t (byte3 i) = slicedEntry S i t 0 :=
  tableRead_eq_slicedEntry (by have := byte3_toNat i; omega)

/-! R70: the number of a round modulo 3 selects its function. -/

theorem roundFunction_of_mod_one {sbox : Option Tables} {km : Vector Word 16} {kr : Vector Rotation 16} {r : Fin 16}
    {d : Word} (h : roundNumber r % 3 = 1) :
    roundFunction .cast128 sbox km kr r d = roundA sbox km[r.val] kr[r.val] d := if_pos h

theorem roundFunction_of_mod_two {sbox : Option Tables} {km : Vector Word 16} {kr : Vector Rotation 16} {r : Fin 16}
    {d : Word} (h : roundNumber r % 3 = 2) :
    roundFunction .cast128 sbox km kr r d = roundB sbox km[r.val] kr[r.val] d := by
  simp [roundFunction, h]

theorem roundFunction_of_mod_zero {sbox : Option Tables} {km : Vector Word 16} {kr : Vector Rotation 16} {r : Fin 16}
    {d : Word} (h : roundNumber r % 3 = 0) :
    roundFunction .cast128 sbox km kr r d = roundC sbox km[r.val] kr[r.val] d := by
  simp [roundFunction, h]

/-! R71 to R74: the combine of each function, its reads as slices. -/

theorem combineA_some (S : Tables) (i : Word) :
    combineA (some S) i =
      ((slicedEntry S i 0 24 ^^^ slicedEntry S i 1 16) - slicedEntry S i 2 8) + slicedEntry S i 3 0 := by
  simp [combineA, add32, sub32]

theorem combineB_some (S : Tables) (i : Word) :
    combineB (some S) i =
      ((slicedEntry S i 0 24 - slicedEntry S i 1 16) + slicedEntry S i 2 8) ^^^ slicedEntry S i 3 0 := by
  simp [combineB, add32, sub32]

theorem combineC_some (S : Tables) (i : Word) :
    combineC (some S) i =
      ((slicedEntry S i 0 24 + slicedEntry S i 1 16) ^^^ slicedEntry S i 2 8) - slicedEntry S i 3 0 := by
  simp [combineC, add32, sub32]

/-- Settles O26: each list of rounds is one remainder modulo 3, and the four reads of its function are slices of the
rotated word. -/
theorem roundFunctionByNumber : Obligations.RoundFunctionByNumber := by
  intro S km kr r d i E
  refine ⟨?_, ?_, ?_⟩
  · rintro hr rfl
    have hmod : roundNumber r % 3 = 1 := (by decide : ∀ n ∈ [1, 4, 7, 10, 13, 16], n % 3 = 1) _ hr
    exact (roundFunction_of_mod_one hmod).trans (combineA_some S _)
  · rintro hr rfl
    have hmod : roundNumber r % 3 = 2 := (by decide : ∀ n ∈ [2, 5, 8, 11, 14], n % 3 = 2) _ hr
    exact (roundFunction_of_mod_two hmod).trans (combineB_some S _)
  · rintro hr rfl
    have hmod : roundNumber r % 3 = 0 := (by decide : ∀ n ∈ [3, 6, 9, 12, 15], n % 3 = 0) _ hr
    exact (roundFunction_of_mod_zero hmod).trans (combineC_some S _)

/-- R70 to R74: the round functions look up tables 0 to 3 alone. -/
theorem roundFunction_congr_tables (family : Family) {sbox sbox' : Option Tables} (km : Vector Word 16)
    (kr : Vector Rotation 16)
    (h : ∀ (t : Fin 8) (b : Byte), t.val < 4 → tableRead sbox' t b = tableRead sbox t b) :
    roundFunction family sbox' km kr = roundFunction family sbox km kr := by
  have h0 (b : Byte) : tableRead sbox' 0 b = tableRead sbox 0 b := h 0 b (by decide)
  have h1 (b : Byte) : tableRead sbox' 1 b = tableRead sbox 1 b := h 1 b (by decide)
  have h2 (b : Byte) : tableRead sbox' 2 b = tableRead sbox 2 b := h 2 b (by decide)
  have h3 (b : Byte) : tableRead sbox' 3 b = tableRead sbox 3 b := h 3 b (by decide)
  funext r d
  simp only [roundFunction, roundA, roundB, roundC, combineA, combineB, combineC, h0, h1, h2, h3]

/-! ### The transform -/

/-- The rounds of an order, and with the halves exchanged those of the opposite order, give the exchanged start. -/
theorem feistelRounds_reverse_swap (f : Fin 16 → Word → Word) (order : List (Fin 16)) (p : Word × Word) :
    feistelRounds f order.reverse (feistelRounds f order p).swap = p.swap := by
  induction order generalizing p with
  | nil => rfl
  | cons r order ih =>
    calc feistelRounds f (r :: order).reverse (feistelRounds f (r :: order) p).swap
        = feistelRounds f [r] (feistelRounds f order.reverse (feistelRounds f order (feistelRound f p r)).swap) := by
          rw [List.reverse_cons, feistelRounds_append]; rfl
      _ = feistelRound f (feistelRound f p r).swap r := by rw [ih]; rfl
      _ = p.swap := feistelRound_undo f r p

/-- R79: the transform exchanges the halves at its end, so the one with the opposite order starts where it must. -/
theorem transform_reverse_transform (f : Fin 16 → Word → Word) (order : List (Fin 16)) (p : Word × Word) :
    transform f order.reverse (transform f order p) = p := by
  rw [transform, transform, feistelRounds_reverse_swap, Prod.swap_swap]

theorem backwardOrder_eq_reverse (r16 : Bool) : backwardOrder r16 = (forwardOrder r16).reverse := rfl

theorem forwardOrder_eq_reverse (r16 : Bool) : forwardOrder r16 = (backwardOrder r16).reverse :=
  (List.reverse_reverse _).symm

/-! ### Blocks (R31) -/

@[simp] theorem joinBlock_length (p : Word × Word) : (joinBlock p).length = 8 := rfl

@[simp] theorem splitBlock_joinBlock (p : Word × Word) : splitBlock (joinBlock p) = some p := by
  simp [joinBlock, bytesOf32, splitBlock, be32_bytes]

/-- Eight bytes are the bytes of their two halves. -/
theorem exists_joinBlock_eq {data : List Byte} (h : data.length = 8) : ∃ p, joinBlock p = data := by
  match data, h with
  | [d0, d1, d2, d3, d4, d5, d6, d7], _ =>
    exact ⟨(be32 d0 d1 d2 d3, be32 d4 d5 d6 d7), by simp [joinBlock, bytesOf32_be32]⟩

/-! ### `ENC` and `DEC` -/

/-- The round function of an engine under a configuration. -/
def Engine.roundFn (cfg : Params) (e : Engine) : Fin 16 → Word → Word :=
  roundFunction cfg.family cfg.sbox e.km e.kr

/-- R76, R77: on an initialised engine, a block is transformed. -/
theorem blockCommand_joinBlock (order : Bool → List (Fin 16)) (p : Word × Word) (cfg : Params) {e : Engine}
    (hi : e.inited = true) :
    blockCommand order (joinBlock p) cfg e = respond e (joinBlock (transform (e.roundFn cfg) (order e.r16) p)) := by
  simp [blockCommand, hi, Engine.roundFn]

/-- R80: neither command writes its engine. -/
@[simp] theorem blockCommand_engine (order : Bool → List (Fin 16)) (data : List Byte) (cfg : Params) (e : Engine) :
    (blockCommand order data cfg e).1 = e := by
  unfold blockCommand
  split
  · rfl
  · split <;> rfl

/-- R80: what the reply depends on, the round function standing for the round keys and the tables. -/
theorem blockCommand_reply_congr (order : Bool → List (Fin 16)) (data : List Byte) {cfg cfg' : Params}
    {e e' : Engine} (hi : e'.inited = e.inited) (hr : e'.r16 = e.r16) (hf : e'.roundFn cfg' = e.roundFn cfg) :
    (blockCommand order data cfg' e').2 = (blockCommand order data cfg e).2 := by
  unfold Engine.roundFn at hf
  unfold blockCommand
  rw [hi, hr, hf]
  split
  · rfl
  · split <;> rfl

/-- R79: with the same round function and round count, the command of the opposite order turns the block back. -/
theorem blockCommand_roundTrip {order order' : Bool → List (Fin 16)} (ho : ∀ b, order' b = (order b).reverse)
    {cfg cfg' : Params} {e e' : Engine} (hi : e.inited = true) (hi' : e'.inited = true) (hr : e'.r16 = e.r16)
    (hf : e'.roundFn cfg' = e.roundFn cfg) {data : List Byte} (hd : data.length = 8) :
    ∃ c, c.length = 8 ∧ blockCommand order data cfg e = respond e c ∧
      blockCommand order' c cfg' e' = respond e' data := by
  obtain ⟨p, rfl⟩ := exists_joinBlock_eq hd
  refine ⟨_, joinBlock_length _, blockCommand_joinBlock order p cfg hi, ?_⟩
  rw [blockCommand_joinBlock order' _ cfg' hi', hf, hr, ho, transform_reverse_transform]

/-- A command that responds with 8 bytes: the response frame, and the engine as the command leaves it. -/
theorem exec_of_respond_eight {s : State} {e e' : Engine} {i : Instr} {c : List Byte}
    (he : s.engines[s.port]? = some e) (hc : commandOf i s.cfg e = respond e' c) (hl : c.length = 8) :
    exec i s = .next (s.answered e' ([0x00, 0x08, 0x00] ++ c)) := by
  rw [exec_of_some i he, hc, respond_engine, respond_reply, responseFrame_ok, hl]
  rfl

/-- Settles O31: the orders of `ENC` and `DEC` are each the other reversed, so `blockCommand_roundTrip` holds both
ways. -/
theorem cipherRoundTrip : Obligations.CipherRoundTrip := by
  intro s s' e e' data he he' hi hi' hkm hkr hr hsbox hfam hd
  have hf : e'.roundFn s'.cfg = e.roundFn s.cfg := by simp only [Engine.roundFn, hkm, hkr, hsbox, hfam]
  constructor
  · obtain ⟨c, hc, henc, hdec⟩ := blockCommand_roundTrip backwardOrder_eq_reverse hi hi' hr hf hd
    exact ⟨c, hc, exec_of_respond_eight he henc hc, exec_of_respond_eight he' hdec hd⟩
  · obtain ⟨c, hc, hdec, henc⟩ := blockCommand_roundTrip forwardOrder_eq_reverse hi hi' hr hf hd
    exact ⟨c, hc, exec_of_respond_eight he hdec hc, exec_of_respond_eight he' henc hd⟩

/-- A command that is `ENC` or `DEC` answers, and its engine is as before. -/
theorem exec_of_blockCommand {s : State} {e : Engine} {i : Instr} {order : Bool → List (Fin 16)} {data : List Byte}
    (he : s.engines[s.port]? = some e) (hc : commandOf i = blockCommand order data) :
    exec i s = .next (s.answered e (responseFrame (blockCommand order data s.cfg e).2)) := by
  rw [exec_of_some i he, hc, blockCommand_engine]

/-- Settles O32: the round functions read tables 0 to 3 alone, and the reply reads the rest through them. -/
theorem cipherReadsOnlyItsInputs : Obligations.CipherReadsOnlyItsInputs := by
  intro s s' e e' data he he' hi hkm hkr hr hfam htables
  have hf : e'.roundFn s'.cfg = e.roundFn s.cfg := by
    simp only [Engine.roundFn, hkm, hkr, hfam, roundFunction_congr_tables _ _ _ htables]
  have hreply (order : Bool → List (Fin 16)) := blockCommand_reply_congr order data hi hr hf
  constructor
  · exact ⟨_, exec_of_blockCommand he rfl, hreply forwardOrder ▸ exec_of_blockCommand he' rfl⟩
  · exact ⟨_, exec_of_blockCommand he rfl, hreply backwardOrder ▸ exec_of_blockCommand he' rfl⟩

end Sys2Proof.Machine
end

section
/-! The field ciphers (`spec/42_field_ciphers.md`): the index mappings (R84), the stripping (R85, R87), and what they
read and write (R82). -/

namespace Sys2Proof.Machine

/-! ### The index mappings -/

/-- R84: 44 and 12 are the same modulo 32. -/
theorem indexA_val (i : Nat) : (indexA i).val = i * 12 % 32 := by
  simp only [indexA]
  omega

/-- R84: 99 and 3 are the same modulo 32. -/
theorem indexB_val (i : Nat) : (indexB i).val = i * 3 % 32 := by
  simp only [indexB]
  omega

/-- R84: eight steps of 12 are a multiple of 32. -/
theorem indexA_add_eight (i : Nat) : indexA (i + 8) = indexA i := by
  apply Fin.ext
  simp only [indexA_val]
  omega

/-- R84: 4 divides the step and the length of the key. -/
theorem indexA_mod_four (i : Nat) : (indexA i).val % 4 = 0 := by
  rw [indexA_val]
  omega

/-- R84: 11 is the inverse of 3 modulo 32, so every position is reached, that of `m` from `m * 11 mod 32`. -/
theorem indexB_mul_eleven (m : Fin 32) : indexB (m.val * 11 % 32) = m := by
  apply Fin.ext
  rw [indexB_val]
  omega

/-- The password cipher before stripping reads `PWKEY_A` at the multiples of 4 alone. -/
theorem passwordBytes_congr_keyA {a a' : FieldKey} (b : FieldKey) (i : Nat) (buf : List Byte)
    (h : ∀ j : Fin 32, j.val % 4 = 0 → a[j.val] = a'[j.val]) :
    passwordBytes a b i buf = passwordBytes a' b i buf := by
  refine List.ext_getElem? fun j => ?_
  have hkey : a[(indexA (i + j)).val] = a'[(indexA (i + j)).val] := h _ (indexA_mod_four _)
  rw [passwordBytes_getElem?, passwordBytes_getElem?, hkey]

/-- Settles O36: the tables are evaluated, and the other clauses are arithmetic modulo 32. -/
theorem passwordIndexMappings : Obligations.PasswordIndexMappings := by
  refine ⟨by decide, by decide, fun i => ⟨indexA_val i, indexA_add_eight i, indexA_mod_four i⟩, indexB_val,
    fun m => ⟨m.val * 11 % 32, Nat.mod_lt _ (by decide), indexB_mul_eleven m⟩, fun i hi => by omega, ?_⟩
  intro a a' b dlen buf h
  rw [passwordOutput, passwordOutput, passwordBytes_congr_keyA b 0 _ h]

/-! ### The stripping -/

/-- R88: as many bytes are taken as the cipher processes. -/
theorem take_processed_length (n cap : Nat) (buf : List Byte) :
    (buf.take (processed n buf.length cap)).length = min n (min buf.length cap) := by
  obtain ⟨-, hbuf, -⟩ := processed_le n buf.length cap
  rw [List.length_take, Nat.min_eq_left hbuf, processed]

/-- R85: a declared size of 0 leaves nothing to process. -/
theorem passwordOutput_zero (a b : FieldKey) (buf : List Byte) : passwordOutput a b 0 buf = [] := by
  simp [passwordOutput, processed, passwordBytes, strip]

/-- Settles O37: the output is `strip` of the XORed bytes, and `strip_spec` says what that removes. -/
theorem passwordNullsStripped : Obligations.PasswordNullsStripped := by
  rintro a b dlen buf t rfl
  obtain ⟨hsub, hnull, hcount, hlen⟩ :=
    strip_spec (passwordBytes a b 0 (buf.take (processed dlen.toNat buf.length passwordCap))) nullByte
  refine ⟨hsub, hnull, hcount, hlen, ?_, ?_⟩
  · rw [passwordBytes_length, take_processed_length]
  · rintro rfl
    exact passwordOutput_zero a b buf

/-- Settles O39: the output is `strip` of the bytes with 156 added. -/
theorem serialSpacesStripped : Obligations.SerialSpacesStripped := by
  rintro cap dlen buf t rfl
  obtain ⟨hsub, hspace, hcount, -⟩ :=
    strip_spec (serialBytes (buf.take (processed dlen.toNat buf.length cap))) spaceByte
  exact ⟨hsub, hspace, hcount, rfl⟩

/-! ### What the field ciphers read and write -/

/-- A command that leaves both engines and responds with one payload gives the same `OK` response on both states. -/
theorem exec_agree_of_respond {s s' : State} {e e' : Engine} {i : Instr} {p : List Byte}
    (he : s.engines[s.port]? = some e) (he' : s'.engines[s'.port]? = some e')
    (hc : commandOf i s.cfg e = respond e p) (hc' : commandOf i s'.cfg e' = respond e' p) :
    ∃ r, exec i s = .next (s.answered e (0x00 :: r)) ∧ exec i s' = .next (s'.answered e' (0x00 :: r)) := by
  refine ⟨bytesOf16 (count16 p.length) ++ p, ?_, ?_⟩
  · rw [exec_of_some i he, hc]
    rfl
  · rw [exec_of_some i he', hc']
    rfl

/-- R82: byte `i` of the password cipher before stripping is a function of input byte `i` and of `i`. -/
theorem passwordBytes_getElem?_congr (a b : FieldKey) {buf buf' : List Byte} {i : Nat} (h : buf[i]? = buf'[i]?) :
    (passwordBytes a b 0 buf)[i]? = (passwordBytes a b 0 buf')[i]? := by
  rw [passwordBytes_getElem?, passwordBytes_getElem?, h]

/-- R82: byte `i` of the serial cipher before stripping is a function of input byte `i`. -/
theorem serialBytes_getElem?_congr {buf buf' : List Byte} {i : Nat} (h : buf[i]? = buf'[i]?) :
    (serialBytes buf)[i]? = (serialBytes buf')[i]? := by
  rw [serialBytes_getElem?, serialBytes_getElem?, h]

/-- Settles O41: either cipher leaves its engine and responds with an output of the keys, or of `SER_CAP`, alone. -/
theorem fieldCiphersAreStateless : Obligations.FieldCiphersAreStateless := by
  refine ⟨fun s s' e e' he he' hA hB hcap => ⟨fun dlen buf => ?_, fun dlen buf => ?_⟩,
    fun a b _ _ _ h => ⟨passwordBytes_getElem?_congr a b h, serialBytes_getElem?_congr h⟩⟩
  · have hc' : commandOf (.pwdec dlen buf) s'.cfg e' =
        respond e' (passwordOutput s.cfg.pwkeyA s.cfg.pwkeyB dlen buf) := by
      rw [commandOf, pwdecCommand, hA, hB]
    exact exec_agree_of_respond he he' rfl hc'
  · have hc' : commandOf (.serdec dlen buf) s'.cfg e' = respond e' (serialOutput s.cfg.serCap dlen buf) := by
      rw [commandOf, serdecCommand, hcap]
    exact exec_agree_of_respond he he' rfl hc'

end Sys2Proof.Machine
end

section
/-! The values of the status byte (`spec/43_status.md` R91) in the states that keep the invariant of R26. -/

namespace Sys2Proof.Machine

/-- R3: `TBL_OK` says whether the block has tables. -/
theorem tblOk_eq_true_iff {cfg : Params} : cfg.tblOk = true ↔ cfg.sbox ≠ none := Option.isSome_iff_ne_none

/-- R26: an initialised engine has tables. -/
theorem Engine.Inv.sbox_ne_none {cfg : Params} {e : Engine} (hinv : e.Inv cfg) (hi : e.inited = true) :
    cfg.sbox ≠ none := by
  obtain ⟨hinit, -⟩ := hinv
  obtain ⟨htbl, -⟩ := hinit hi
  exact tblOk_eq_true_iff.mp htbl

/-- R90, R91: before `INIT` the other flags are at their reset value, so `ST` is `TBL_OK` alone. -/
theorem Engine.Inv.statusByte_of_not_inited {cfg : Params} {e : Engine} (hinv : e.Inv cfg) (hi : e.inited = false) :
    statusByte cfg.tblOk e = BitVec.ofNat 8 cfg.tblOk.toNat := by
  obtain ⟨-, hflags⟩ := hinv
  obtain ⟨hfenc, hr16⟩ := hflags hi
  simp [statusByte, hi, hfenc, hr16]

/-- R91: with tables and after `INIT`, only `FENC` and `R16` are left to choose, which gives four values. -/
theorem statusByte_of_inited {e : Engine} (hi : e.inited = true) :
    statusByte true e ∈ [0x03, 0x07, 0x0B, 0x0F] ∧
      (statusByte true e).getLsbD 2 = e.fenc ∧ (statusByte true e).getLsbD 3 = e.r16 := by
  rw [statusByte, hi]
  cases e.fenc <;> cases e.r16 <;> decide

/-- Settles O43: the invariant says which flags can stand together, and each case leaves one formula for `ST`. -/
theorem statusValues : Obligations.StatusValues := by
  rintro s e ⟨-, hengines⟩ he
  have hinv : e.Inv s.cfg := hengines e he
  refine ⟨fun hnone => ?noTables, fun hsome hi => ?notInited, fun hi => ?inited⟩
  case noTables =>
    have hi : e.inited = false := Bool.eq_false_of_not_eq_true fun hi => hinv.sbox_ne_none hi hnone
    refine ⟨hi, ?_⟩
    rw [hinv.statusByte_of_not_inited hi, Params.tblOk, hnone]
    rfl
  case notInited =>
    rw [hinv.statusByte_of_not_inited hi, tblOk_eq_true_iff.mpr hsome]
    rfl
  case inited =>
    have hsome : s.cfg.sbox ≠ none := hinv.sbox_ne_none hi
    rw [tblOk_eq_true_iff.mpr hsome]
    exact ⟨hsome, statusByte_of_inited hi⟩

end Sys2Proof.Machine
end

section
/-! The rejects (`spec/60_exceptions.md`): the illegal opcode (R94), `INIT`, `ENC` and `DEC` without tables (R96), the
tests of `ENC` and `DEC` (R98, R99), and what every reject leaves (R102). -/

namespace Sys2Proof.Machine

/-! ### Illegal opcodes -/

/-- R48: a byte 0 that is no opcode is rejected, whatever follows it. -/
theorem decode_of_illegal_opcode {op : Byte} (tail : Frame) (h : op.toNat = 0 ∨ 7 ≤ op.toNat) :
    decode (op :: tail) = .rejected .illegalOpcode := by
  have hne (c : Byte) (hlegal : 1 ≤ c.toNat ∧ c.toNat ≤ 6) : op ≠ c := by
    rintro rfl
    omega
  rw [decode, if_neg (hne opInit (by decide)), if_neg (hne opEnc (by decide)), if_neg (hne opDec (by decide)),
    if_neg (hne opPwdec (by decide)), if_neg (hne opSerdec (by decide)), if_neg (hne opStat (by decide))]

/-- A frame that the frame check decides is no illegal opcode: its rejections are those of R95. -/
theorem FrameChecked.decode_ne_illegalOpcode {f : Frame} (h : FrameChecked f) :
    decode f ≠ .rejected .illegalOpcode := by
  intro hd
  obtain ⟨-, err, herr, hstatus⟩ | ⟨-, i, hi⟩ := h
  · obtain rfl : err = .illegalOpcode := Decoded.rejected.inj (herr.symm.trans hd)
    cases hstatus
  · cases hi.symm.trans hd

/-- R48: the decoder reports an illegal opcode for a byte 0 outside 1 to 6, and for nothing else. -/
theorem decode_eq_illegalOpcode_iff {f : Frame} :
    decode f = .rejected .illegalOpcode ↔
      ∃ op tail, f = op :: tail ∧ (op.toNat = 0 ∨ (7 ≤ op.toNat ∧ op.toNat ≤ 255)) := by
  constructor
  · intro hd
    match f with
    | [] => exact absurd hd frameChecked_empty.decode_ne_illegalOpcode
    | op :: tail =>
      have hillegal : ¬ (1 ≤ op.toNat ∧ op.toNat ≤ 6) := fun hl =>
        (frameChecked_of_legalOpcode ((legalOpcode_cons op tail).mpr hl)).decode_ne_illegalOpcode hd
      have hbyte : op.toNat < 256 := op.isLt
      exact ⟨op, tail, rfl, by omega⟩
  · rintro ⟨op, tail, rfl, h⟩
    exact decode_of_illegal_opcode tail (h.imp_right And.left)

/-- Settles O6: both frames are rejected by the decoder, and `step_of_rejected` says what that answers. -/
theorem illegalOpcodeAnswersIllegal : Obligations.IllegalOpcodeAnswersIllegal :=
  ⟨fun _ => decode_eq_illegalOpcode_iff,
    fun _ _ _ tail _ _ ha hop => step_of_rejected ha (decode_of_illegal_opcode tail (hop.imp_right And.left)),
    fun _ _ _ _ ha => step_of_rejected ha rfl⟩

/-! ### The tests of `ENC` and `DEC` -/

theorem blockCommand_of_not_inited (order : Bool → List (Fin 16)) (data : List Byte) (cfg : Params) {e : Engine}
    (hi : e.inited = false) : blockCommand order data cfg e = reject e .eNotInit := if_pos hi

theorem blockCommand_of_length_ne (order : Bool → List (Fin 16)) {data : List Byte} (cfg : Params) {e : Engine}
    (hi : e.inited = true) (hlen : data.length ≠ 8) : blockCommand order data cfg e = reject e .eBlockLen := by
  simp [blockCommand, hi, (splitBlock_none_iff data).mpr hlen]

/-- R102: a block on which both commands reject with one status answers its code alone and leaves the engine. -/
theorem exec_block_of_reject {s : State} {e : Engine} {data : List Byte} {st : Status}
    (he : s.engines[s.port]? = some e)
    (hc : ∀ order : Bool → List (Fin 16), blockCommand order data s.cfg e = reject e st) :
    exec (.enc data) s = .next (s.answered e [statusCode st, 0, 0]) ∧
      exec (.dec data) s = .next (s.answered e [statusCode st, 0, 0]) := by
  constructor
  · simp [exec_of_some _ he, commandOf, hc]
  · simp [exec_of_some _ he, commandOf, hc]

/-- R98: without a successful `INIT`, `ENC` and `DEC` reject every block. -/
theorem exec_block_of_not_inited {s : State} {e : Engine} (data : List Byte) (he : s.engines[s.port]? = some e)
    (hi : e.inited = false) :
    exec (.enc data) s = .next (s.answered e [0x05, 0x00, 0x00]) ∧
      exec (.dec data) s = .next (s.answered e [0x05, 0x00, 0x00]) :=
  exec_block_of_reject he fun order => blockCommand_of_not_inited order data s.cfg hi

/-- Settles O29: the first test asks for the engine alone, and the second is that the data has no halves. -/
theorem blockTestsInOrder : Obligations.BlockTestsInOrder := by
  refine fun s e data he => ⟨fun hi => ?_, fun hi hlen => ?_⟩
  · exact exec_block_of_not_inited data he hi
  · exact exec_block_of_reject he fun order => blockCommand_of_length_ne order s.cfg hi hlen

/-! ### A block without tables -/

/-- R109: no step writes the configuration. -/
theorem step_cfg {s t : State} (h : step s = .next t) : t.cfg = s.cfg := by
  obtain ⟨-, hs⟩ | ⟨_, _, _, _, -, hs⟩ | ⟨_, _, _, -, -, hs⟩ | ⟨_, _, -, hs⟩ | ⟨rest, -, hs⟩ |
    ⟨_, _, _, -, -, -, hs⟩ := step_cases s
  case inr.inr.inr.inr.inl =>
    obtain rfl : (s.expect rest).releaseReset = t := Host.Outcome.next.inj (hs.symm.trans h)
    obtain ⟨hcfg, -⟩ := (s.expect rest).releaseReset_frame
    exact hcfg
  case inr.inr.inr.inr.inr => cases hs.symm.trans h
  all_goals
    cases hs.symm.trans h
    rfl

/-- R26: without tables no engine is initialised. -/
theorem Engine.Inv.not_inited_of_noTables {cfg : Params} {e : Engine} (hinv : e.Inv cfg) (hnone : cfg.sbox = none) :
    e.inited = false :=
  Bool.eq_false_of_not_eq_true fun hi => hinv.sbox_ne_none hi hnone

/-- Settles O16: the first test of `INIT` fails, the invariant leaves no initialised engine, and the tables are
configuration. -/
theorem withoutTablesNothingInitialises : Obligations.WithoutTablesNothingInitialises := by
  rintro s e ⟨-, hengines⟩ hnone he
  have hi : e.inited = false := (hengines e (List.mem_of_getElem? he)).not_inited_of_noTables hnone
  refine ⟨fun fe key => ?_, fun data => exec_block_of_not_inited data he hi, fun t ht => ?_⟩
  · exact exec_init_of_reject fe he (initReject_of_noTables e key hnone)
  · rw [step_cfg ht, hnone]

/-! ### Rejects are precise -/

/-- R93: the codes of the seven rejects. -/
theorem statusCode_range {st : Status} (h : st ≠ .ok) : 1 ≤ (statusCode st).toNat ∧ (statusCode st).toNat ≤ 7 := by
  cases st
  case ok => exact absurd rfl h
  all_goals decide

/-- A response whose byte 0 is not 0 is that of a reply other than `OK`. -/
theorem status_ne_ok_of_head {r : Reply} (h : (responseFrame r).head? ≠ some 0x00) : r.status ≠ .ok := by
  intro hok
  rw [responseFrame_head, hok] at h
  exact h rfl

/-- Settles O45: a frame answers `OK` or is a reject (`frameCommand_reject`), which writes back the engine that was
there. -/
theorem rejectIsPrecise : Obligations.RejectIsPrecise := by
  intro s k f rest e ha
  refine ⟨_, _, step_accepts ha, rfl, fun hhead => ?_⟩
  have hne : (frameCommand f s.cfg e).2.status ≠ .ok := status_ne_ok_of_head hhead
  obtain hok | ⟨st, hc⟩ := frameCommand_reject f s.cfg e
  · exact absurd hok hne
  obtain ⟨-, -, he⟩ := ha
  rw [hc] at hne ⊢
  obtain ⟨h1, h7⟩ := statusCode_range hne
  exact ⟨engines_set_self he, statusCode st, h1, h7, responseFrame_reject st⟩

end Sys2Proof.Machine
end

section
/-! The configuration throughout a run (`spec/70_reset_and_hazards.md` R109). -/

namespace Sys2Proof.Machine

/-- R5, R109: a command writes back one engine and a release of reset redraws each engine in its place, so no step adds
or removes one. -/
theorem step_engines_length {s t : State} (h : step s = .next t) : t.engines.length = s.engines.length := by
  obtain ⟨-, hs⟩ | ⟨_, _, _, _, -, hs⟩ | ⟨_, _, _, -, -, hs⟩ | ⟨_, _, -, hs⟩ | ⟨rest, -, hs⟩ |
    ⟨_, _, _, -, -, -, hs⟩ := step_cases s
  case inr.inl =>
    cases hs.symm.trans h
    rw [State.answered_engines, List.length_set, State.accepted_engines]
  case inr.inr.inr.inr.inl =>
    cases hs.symm.trans h
    obtain ⟨-, -, -, -, hlen⟩ := (s.expect rest).releaseReset_frame
    exact hlen
  case inr.inr.inr.inr.inr => cases hs.symm.trans h
  all_goals
    cases hs.symm.trans h
    rfl

/-- The induction over runs: what no step changes, no run changes. -/
theorem run_keeps {α : Type} {g : State → α} (hstep : ∀ s t, step s = .next t → g t = g s) {n : Nat} {s t : State}
    (h : Host.Core.run Sys2Proof.core n s = .next t) : g t = g s := by
  induction n generalizing s with
  | zero => exact congrArg g (Host.Outcome.next.inj h).symm
  | succ n ih =>
    obtain ⟨u, hu, hrun⟩ := run_succ_next h
    exact (ih hrun).trans (hstep s u hu)

/-- Settles O52: no step changes the parameters or the number of engines, so no run does. -/
theorem configurationIsConstant : Obligations.ConfigurationIsConstant :=
  fun _ _ _ h => ⟨run_keeps (fun _ _ => step_cfg) h,
    run_keeps (g := fun s => s.engines.length) (fun _ _ => step_engines_length) h⟩

end Sys2Proof.Machine
end

section
/-! The frames (`spec/30_encoding.md`): the decoder and the encoder are inverse (R41 to R46, R51), the longest command
(R40), written frames (R47), and the layout of a response (R50). -/

namespace Sys2Proof.Machine

/-- The header check passes a body of the length counted. -/
theorem counted_of_eq {n : Nat} {body : List Byte} (i : Instr) (h : body.length = n) :
    counted n body i = .command i := if_pos h

/-- R42: the direction byte that the encoder writes is read back. -/
@[simp] theorem directionOf_directionByte (fe : Bool) : directionOf (if fe = true then 1 else 0) = some fe := by
  cases fe <;> rfl

/-- R42: a legal direction byte is the one that the encoder writes. -/
theorem directionByte_of_directionOf {fe : Byte} {b : Bool} (h : directionOf fe = some b) :
    (if b then 1 else 0) = fe := by
  obtain ⟨rfl, rfl⟩ | ⟨rfl, rfl⟩ := directionOf_eq_some.mp h <;> rfl

/-- R43: format `B` reads its string back. -/
theorem decodeB_encoded (mk : List Byte → Instr) {data : List Byte} (h : data.length ≤ maxCount8) :
    decodeB mk (count8 data.length :: data) = .command (mk data) :=
  counted_of_eq _ (count8_toNat h).symm

/-- Settles O4, format by format: the length field counts the string, so the header check passes, and a field of two
bytes is put together again. -/
theorem decodeOfEncode : Obligations.DecodeOfEncode := by
  intro i hwf
  cases i with
  | init fe key =>
    rw [Instr.wf_init] at hwf
    simp only [encode, decode_opInit, decodeK, directionOf_directionByte]
    exact counted_of_eq _ (count8_toNat hwf).symm
  | enc data => exact decodeB_encoded .enc ((Instr.wf_enc data).mp hwf)
  | dec data => exact decodeB_encoded .dec ((Instr.wf_dec data).mp hwf)
  | pwdec dlen buf => exact counted_of_eq _ (count8_toNat ((Instr.wf_pwdec dlen buf).mp hwf)).symm
  | serdec dlen buf =>
    rw [Instr.wf_serdec] at hwf
    simp [encode, bytesOf16, decodeS, le16_bytes, counted_of_eq _ (count16_toNat hwf).symm]
  | stat => rfl

/-- A string that a 1-byte field counts is no longer than the field can say. -/
theorem length_le_of_eq_byte {data : List Byte} {n : Byte} (h : data.length = n.toNat) : data.length ≤ 255 := by
  have := n.isLt
  omega

/-- Settles O5, along the six shapes of `decode_cases`: the length field is that of the string, and the fields are what
the encoder writes for the operands read from them. -/
theorem encodeOfDecode : Obligations.EncodeOfDecode := by
  intro f i hd
  obtain ⟨fe, b, klen, key, hb, rfl, hl, rfl⟩ | ⟨blen, data, rfl, hl, rfl⟩ | ⟨blen, data, rfl, hl, rfl⟩ |
    ⟨dlen, alen, buf, rfl, hl, rfl⟩ | ⟨d0, d1, a0, a1, buf, rfl, hl, rfl⟩ | ⟨rfl, rfl⟩ := decode_cases hd
  · refine ⟨(Instr.wf_init b key).mpr (length_le_of_eq_byte hl), ?_⟩
    rw [encode, hl, count8_of_toNat, directionByte_of_directionOf hb]
  · exact ⟨(Instr.wf_enc data).mpr (length_le_of_eq_byte hl), by rw [encode, hl, count8_of_toNat]⟩
  · exact ⟨(Instr.wf_dec data).mpr (length_le_of_eq_byte hl), by rw [encode, hl, count8_of_toNat]⟩
  · exact ⟨(Instr.wf_pwdec dlen buf).mpr (length_le_of_eq_byte hl), by rw [encode, hl, count8_of_toNat]⟩
  · have hlt := (le16 a0 a1).isLt
    refine ⟨(Instr.wf_serdec _ buf).mpr (by omega), ?_⟩
    rw [encode, hl, count16_of_toNat, bytesOf16_le16, bytesOf16_le16]
    rfl
  · exact ⟨Instr.wf_stat, rfl⟩

/-- R40: the frame of a well-formed command, whichever it is. -/
theorem encode_length_le {i : Instr} (hwf : i.wf = true) : (encode i).length ≤ 65540 := by
  have hlen : Laws.FrameLength.Statement i := by
    cases i with
    | init fe key => exact Laws.FrameLength.init fe key
    | enc data => exact Laws.FrameLength.enc data
    | dec data => exact Laws.FrameLength.dec data
    | pwdec dlen buf => exact Laws.FrameLength.pwdec dlen buf
    | serdec dlen buf => exact Laws.FrameLength.serdec dlen buf
    | stat => exact Laws.FrameLength.stat
  exact (hlen hwf).2

/-- Settles O8: the frame is the encoding of a well-formed command. -/
theorem noCommandAboveLongestFrame : Obligations.NoCommandAboveLongestFrame := by
  intro f i hd
  obtain ⟨hwf, rfl⟩ := encodeOfDecode f i hd
  exact encode_length_le hwf

/-- Settles O9: the six frames are evaluated. -/
theorem writtenFramesDecode : Obligations.WrittenFramesDecode :=
  ⟨rfl, rfl, rfl, rfl, rfl, rfl⟩

/-- The status that a code stands for (R93), with `E_REINIT` for every byte from 7 on. -/
def statusOfCode (c : Byte) : Status :=
  match c.toNat with
  | 0 => .ok
  | 1 => .eIllegal
  | 2 => .eFrame
  | 3 => .eNoTables
  | 4 => .eKeyLen
  | 5 => .eNotInit
  | 6 => .eBlockLen
  | _ => .eReinit

/-- R93: a status is read back from its code. -/
theorem statusOfCode_statusCode (st : Status) : statusOfCode (statusCode st) = st := by
  cases st <;> rfl

/-- Settles O10: `le16` of the two length bytes is the 16-bit count, which holds the length; the codes have an
inverse. -/
theorem responseFrameLayout : Obligations.ResponseFrameLayout := by
  refine ⟨fun r hlen => ⟨_, _, rfl, ?_⟩, fun a b => ?_⟩
  · rw [le16_bytes, count16_toNat hlen]
  · exact fun h => Function.LeftInverse.injective statusOfCode_statusCode h

/-- Settles O3: both operations are those of 32-bit words. -/
theorem arithmeticWraps : Obligations.ArithmeticWraps := by
  intro a b
  have ha := a.isLt
  have hb := b.isLt
  simp only [add32, sub32, BitVec.toNat_add, BitVec.toNat_sub]
  exact ⟨trivial, fun _ => by omega, fun _ => by omega⟩

end Sys2Proof.Machine
end

section
/-! The step (`spec/70_reset_and_hazards.md`): the commands it runs (R37), waiting, the reset input (R108), and ports
that do not exist (R106). -/

namespace Sys2Proof.Machine

/-- Settles O11: `step` decodes the frame and runs its command on the port selected. -/
theorem stepRunsDecodedCommand : Obligations.StepRunsDecodedCommand := by
  intro s k f rest i hi hr hd
  obtain ⟨hwf, -⟩ := encodeOfDecode f i hd
  refine ⟨hwf, ?_⟩
  simp [step, nextAction, hi, hostAction, presentFrame, hr, execFrame, hd, State.accepted_eq]

/-- Settles O12. -/
theorem waitingChangesNothing : Obligations.WaitingChangesNothing := fun _ h => step_wait h

/-- R15, R108: a reset leaves the flags of every engine at 0. -/
theorem resetEngines_flags {n k : Nat} {es : List Engine} {e : Engine} (h : e ∈ resetEngines n k es) :
    e.inited = false ∧ e.fenc = false ∧ e.r16 = false := by
  obtain ⟨j, hj⟩ := List.mem_iff_getElem?.mp h
  rw [resetEngines_getElem?] at hj
  obtain ⟨_, -, rfl⟩ := Option.map_eq_some_iff.mp hj
  exact ⟨rfl, rfl, rfl⟩

/-- Settles O13: the step is `expect`, `assertReset` or `releaseReset`, and a release writes the engines that
`resetEngines` gives. -/
theorem resetInput : Obligations.ResetInput := by
  refine ⟨fun s k f rest hi hr => step_inReset hi hr, fun s l rest hi => step_assertReset hi, fun s rest hi hr => ?_⟩
  have hrelease := State.releaseReset_of_asserted (s.expect rest) hr
  refine ⟨_, (step_releaseReset hi).trans (congrArg _ hrelease), rfl, rfl, rfl, rfl, rfl,
    resetEngines_length _ _ _, fun e he => resetEngines_flags he⟩

/-- Settles O59. -/
theorem absentPortStops : Obligations.AbsentPortStops := fun _ _ _ _ hi hr hk => step_noSuchPort hi hr hk

end Sys2Proof.Machine
end

section
/-! What every step keeps (`spec/10_state.md` R16, R26): the invariant, the round keys of the last key, and `INITED`
outside of reset. -/

namespace Sys2Proof.Machine

/-! ### The invariant -/

/-- R26, R90: an engine whose flags are clear keeps the invariant. -/
theorem Engine.inv_of_flags (cfg : Params) {e : Engine} (h : e.inited = false ∧ e.fenc = false ∧ e.r16 = false) :
    e.Inv cfg := by
  obtain ⟨hi, hfenc, hr16⟩ := h
  exact ⟨fun hi' => absurd (hi.symm.trans hi') (by decide), fun _ => ⟨hfenc, hr16⟩⟩

/-- Settles O53: every engine at reset is `Engine.reset`. -/
theorem invariantAtReset : Obligations.InvariantAtReset := by
  refine ⟨List.length_replicate, fun e he => ?_⟩
  obtain rfl := List.eq_of_mem_replicate he
  exact Engine.inv_of_flags _ ⟨rfl, rfl, rfl⟩

/-- R56 to R59: an `INIT` that its tests let through finds tables and leaves the round keys of its key. -/
theorem initEngine_keyedBy {cfg : Params} {e : Engine} (fe : Bool) {key : List Byte}
    (h : initReject cfg e key = none) : cfg.tblOk = true ∧ (initEngine cfg fe key).keyedBy cfg key := by
  obtain ⟨htbl, h1, h16, -⟩ := (initReject_none_iff cfg e key).mp h
  have hr16 : (initEngine cfg fe key).r16 = false ↔ key.length < 11 :=
    (initEngine_r16_eq_false_iff cfg fe key).trans Nat.lt_succ_iff.symm
  exact ⟨tblOk_eq_true_iff.mpr htbl, h1, h16, rfl, rfl, hr16⟩

/-- R26: the engine after a frame keeps the invariant. -/
theorem frameCommand_inv (f : Frame) {cfg : Params} {e : Engine} (h : e.Inv cfg) :
    (frameCommand f cfg e).1.Inv cfg := by
  obtain hsame | ⟨fe, key, -, hnone, hinit⟩ := frameCommand_engine f cfg e
  · rwa [hsame]
  · obtain ⟨htbl, hkeyed⟩ := initEngine_keyedBy fe hnone
    rw [hinit]
    exact ⟨fun _ => ⟨htbl, key, hkeyed⟩, fun hi => by cases hi⟩

/-- R26, R108: a step changes an engine by the frame that its port executes or by a release of reset; each leaves an
engine that keeps the invariant. -/
theorem step_engines_inv {s t : State} (hs : ∀ e ∈ s.engines, e.Inv s.cfg) (h : step s = .next t) :
    ∀ e ∈ t.engines, e.Inv s.cfg := by
  obtain ⟨-, hstep⟩ | ⟨k, f, rest, e, ⟨-, -, he⟩, hstep⟩ | ⟨_, _, _, -, -, hstep⟩ | ⟨_, _, -, hstep⟩ |
    ⟨rest, -, hstep⟩ | ⟨_, _, _, -, -, -, hstep⟩ := step_cases s <;> cases hstep.symm.trans h
  case inr.inl =>
    intro e' he'
    obtain hmem | rfl := List.mem_or_eq_of_mem_set he'
    · exact hs e' hmem
    · exact frameCommand_inv f (hs e (List.mem_of_getElem? he))
  case inr.inr.inr.inr.inl =>
    cases hr : s.inReset with
    | true =>
      rw [State.releaseReset_of_asserted (s.expect rest) hr]
      exact fun e' he' => Engine.inv_of_flags s.cfg (resetEngines_flags he')
    | false =>
      rw [State.releaseReset_of_released (s.expect rest) hr]
      exact hs
  all_goals exact hs

/-- Settles O54: a step changes neither the parameters nor the number of engines, and each engine it leaves keeps the
invariant. -/
theorem invariantKept : Obligations.InvariantKept := by
  rintro s t ⟨hlen, hengines⟩ h
  refine ⟨?_, ?_⟩
  · rw [step_engines_length h, step_cfg h, hlen]
  · rw [step_cfg h]
    exact step_engines_inv hengines h

/-! ### The last key -/

/-- Settles O55: every engine at reset is `Engine.reset`. -/
theorem noKeyAtReset : Obligations.NoKeyAtReset := by
  intro k e he
  obtain rfl := List.eq_of_mem_replicate (List.mem_of_getElem? he)
  exact ⟨rfl, nofun⟩

/-- The engine holds the round keys of `last`, as `State.Keyed` asks of the engine of one port. -/
def Engine.HoldsKey (cfg : Params) (e : Engine) (last : Option (List Byte)) : Prop :=
  e.inited = last.isSome ∧ ∀ key, last = some key → cfg.tblOk = true ∧ e.keyedBy cfg key

theorem State.keyed_iff {s : State} {k : Nat} {last : Option (List Byte)} :
    s.Keyed k last ↔ ∀ e, s.engines[k]? = some e → e.HoldsKey s.cfg last := Iff.rfl

/-- A step that leaves engine `k` as it was, and the last key too, keeps what engine `k` holds. -/
theorem State.Keyed.of_same {s t : State} {k : Nat} {last last' : Option (List Byte)} (hk : s.Keyed k last)
    (hcfg : t.cfg = s.cfg) (hengine : t.engines[k]? = s.engines[k]?) (hlast : last' = last) : t.Keyed k last' := by
  rw [State.keyed_iff, hcfg, hengine, hlast]
  exact hk

/-- The key of an `INIT` that its tests let through becomes the last key (R57). -/
theorem State.lastKey_of_init {s : State} {k : Nat} {f : Frame} {rest : List HostAction} {e : Engine} {fe : Bool}
    {key : List Byte} (last : Option (List Byte)) (ha : s.Accepts k f rest e)
    (hd : decode f = .command (.init fe key)) (hnone : initReject s.cfg e key = none) :
    s.lastKey k last = some key := by
  obtain ⟨hi, hr, he⟩ := ha
  obtain ⟨htbl, h1, h16, hre⟩ := (initReject_none_iff s.cfg e key).mp hnone
  simp only [State.lastKey, hi, hd, he]
  exact if_pos ⟨trivial, hr, Option.isSome_iff_ne_none.mpr htbl, h1, h16, hre⟩

/-- Any other frame on port `k` leaves the last key. -/
theorem State.lastKey_of_not_init {s : State} {k : Nat} {f : Frame} {rest : List HostAction} {e : Engine}
    (last : Option (List Byte)) (ha : s.Accepts k f rest e)
    (hno : ∀ fe key, decode f = .command (.init fe key) → initReject s.cfg e key ≠ none) :
    s.lastKey k last = last := by
  obtain ⟨hi, -, he⟩ := ha
  simp only [State.lastKey, hi, he]
  split
  case h_1 fe key _ hd he' =>
    cases he'
    refine if_neg fun ⟨_, _, htbl, h1, h16, hre⟩ => hno fe key hd ?_
    exact (initReject_none_iff s.cfg e key).mpr ⟨Option.isSome_iff_ne_none.mp htbl, h1, h16, hre⟩
  case h_2 => rfl

/-- A frame on another port, or presented while reset is asserted, leaves the last key. -/
theorem State.lastKey_of_not_executed {s : State} {j k : Nat} {f : Frame} {rest : List HostAction}
    (last : Option (List Byte)) (hi : s.inputs = .present j f :: rest) (h : j ≠ k ∨ s.inReset = true) :
    s.lastKey k last = last := by
  simp only [State.lastKey, hi]
  split
  · refine if_neg fun ⟨hjk, hr, _⟩ => ?_
    exact h.elim (fun hne => hne hjk) fun hr' => absurd (hr.symm.trans hr') (by decide)
  · rfl

/-- A frame that is no `INIT` let through leaves its engine. -/
theorem frameCommand_engine_of_not_init {f : Frame} {cfg : Params} {e : Engine}
    (hno : ∀ fe key, decode f = .command (.init fe key) → initReject cfg e key ≠ none) :
    (frameCommand f cfg e).1 = e := by
  obtain hsame | ⟨fe, key, hd, hnone, -⟩ := frameCommand_engine f cfg e
  · exact hsame
  · exact absurd hnone (hno fe key hd)

/-- The frame of an `INIT` let through leaves its engine as `initEngine` says. -/
theorem frameCommand_engine_of_init {f : Frame} {cfg : Params} {e : Engine} {fe : Bool} {key : List Byte}
    (hd : decode f = .command (.init fe key)) (hnone : initReject cfg e key = none) :
    (frameCommand f cfg e).1 = initEngine cfg fe key := by
  simp [frameCommand, hd, commandOf, initCommand, hnone]

/-- R26: a frame executed on port `k` leaves the round keys of the last key. -/
theorem frameCommand_holdsKey {s : State} {k : Nat} {f : Frame} {rest : List HostAction} {e : Engine}
    {last : Option (List Byte)} (ha : s.Accepts k f rest e) (hk : s.Keyed k last) :
    (frameCommand f s.cfg e).1.HoldsKey s.cfg (s.lastKey k last) := by
  by_cases hinit : ∃ fe key, decode f = .command (.init fe key) ∧ initReject s.cfg e key = none
  · obtain ⟨fe, key, hd, hnone⟩ := hinit
    rw [State.lastKey_of_init last ha hd hnone, frameCommand_engine_of_init hd hnone]
    refine ⟨rfl, fun key' hkey => ?_⟩
    cases hkey
    exact initEngine_keyedBy fe hnone
  · have hno (fe : Bool) (key : List Byte) (hd : decode f = .command (.init fe key)) :
        initReject s.cfg e key ≠ none := fun hnone => hinit ⟨fe, key, hd, hnone⟩
    rw [State.lastKey_of_not_init last ha hno, frameCommand_engine_of_not_init hno]
    obtain ⟨-, -, he⟩ := ha
    exact hk e he

/-- The engines after a frame on port `k`, seen at port `j`. -/
theorem getElem?_set_cases {es : List Engine} {k j : Nat} {a e : Engine} (h : (es.set k a)[j]? = some e) :
    (k = j ∧ e = a) ∨ (k ≠ j ∧ es[j]? = some e) := by
  obtain rfl | hkj := eq_or_ne k j
  · rw [List.getElem?_set_self'] at h
    obtain ⟨_, -, rfl⟩ := Option.map_eq_some_iff.mp h
    exact .inl ⟨rfl, rfl⟩
  · exact .inr ⟨hkj, (List.getElem?_set_ne hkj).symm.trans h⟩

/-- R108: after a release of reset no engine holds a key. -/
theorem resetEngines_holdsKey_none (cfg : Params) {n k : Nat} {es : List Engine} {e : Engine}
    (h : e ∈ resetEngines n k es) : e.HoldsKey cfg none := by
  obtain ⟨hi, -⟩ := resetEngines_flags h
  exact ⟨hi, nofun⟩

/-- Settles O56, along `step_cases`: a frame executed on port `k` and a release of an asserted reset change engine `k`
and the last key together, and every other step leaves both. -/
theorem roundKeysAreOfLastKey : Obligations.RoundKeysAreOfLastKey := by
  intro s t k last hk h
  obtain ⟨hi, hs⟩ | ⟨j, f, rest, e, ha, hs⟩ | ⟨j, f, rest, hi, hr, hs⟩ | ⟨l, rest, hi, hs⟩ | ⟨rest, hi, hs⟩ |
    ⟨_, _, _, -, -, -, hs⟩ := step_cases s <;> cases hs.symm.trans h
  · exact hk.of_same rfl rfl (by simp [State.lastKey, hi])
  · intro e' he'
    obtain ⟨rfl, rfl⟩ | ⟨hjk, hsame⟩ := getElem?_set_cases he'
    · exact frameCommand_holdsKey ha hk
    · obtain ⟨hi, -, -⟩ := ha
      rw [State.lastKey_of_not_executed last hi (.inl hjk)]
      exact hk e' hsame
  · exact hk.of_same rfl rfl (State.lastKey_of_not_executed last hi (.inr hr))
  · exact hk.of_same rfl rfl (by simp [State.lastKey, hi])
  · cases hr : s.inReset with
    | true =>
      have hlast : s.lastKey k last = none := by simp [State.lastKey, hi, hr]
      rw [State.releaseReset_of_asserted (s.expect rest) hr, hlast]
      exact fun e' he' => resetEngines_holdsKey_none s.cfg (List.mem_of_getElem? he')
    | false =>
      rw [State.releaseReset_of_released (s.expect rest) hr]
      exact hk.of_same rfl rfl (by simp [State.lastKey, hi, hr])

/-! ### `INITED` -/

/-- R16: no frame clears `INITED`. -/
theorem frameCommand_inited {f : Frame} {cfg : Params} {e : Engine} (h : e.inited = true) :
    (frameCommand f cfg e).1.inited = true := by
  obtain hsame | ⟨fe, key, -, -, hinit⟩ := frameCommand_engine f cfg e
  · rwa [hsame]
  · rw [hinit]
    rfl

/-- Settles O51: a frame clears no `INITED`, and no other step but the release of an asserted reset changes an
engine. -/
theorem onlyResetClearsInited : Obligations.OnlyResetClearsInited := by
  intro s t k e e' h he he' hi hi'
  have hne : t.engines[k]? ≠ s.engines[k]? := by
    intro hsame
    cases he.symm.trans (hsame.symm.trans he')
    exact absurd (hi.symm.trans hi') (by decide)
  obtain ⟨-, hs⟩ | ⟨j, f, rest, ej, ⟨-, -, hej⟩, hs⟩ | ⟨_, _, _, -, -, hs⟩ | ⟨_, _, -, hs⟩ | ⟨rest, hin, hs⟩ |
    ⟨_, _, _, -, -, -, hs⟩ := step_cases s <;> cases hs.symm.trans h
  case inr.inl =>
    obtain ⟨rfl, rfl⟩ | ⟨-, hsame⟩ := getElem?_set_cases he'
    · cases hej.symm.trans he
      exact absurd (hi'.symm.trans (frameCommand_inited hi)) (by decide)
    · exact absurd (he'.trans hsame.symm) hne
  case inr.inr.inr.inr.inl =>
    refine ⟨Bool.eq_true_of_not_eq_false fun hr => hne ?_, rest, hin⟩
    rw [State.releaseReset_of_released (s.expect rest) hr]
    rfl
  all_goals exact absurd rfl hne

end Sys2Proof.Machine
end

section
/-! `INIT` (`spec/40_init_keyschedule.md` section 1): what it loads (R56 to R60), and what the key schedule reads
(R29, R69). -/

namespace Sys2Proof.Machine

/-- R56: an `INIT` that its tests let through answers `OK` with no payload. -/
theorem exec_init_of_pass {s : State} {e : Engine} {fe : Bool} {key : List Byte} (he : s.engines[s.port]? = some e)
    (h : initReject s.cfg e key = none) :
    exec (.init fe key) s = .next (s.answered (initEngine s.cfg fe key) [0x00, 0x00, 0x00]) := by
  simp [exec_of_some _ he, commandOf, initCommand, h, statusCode]

/-- Settles O14: no test of `initReject_none_iff` fails, and the engine is that of `initEngine`. -/
theorem initLoadsRoundKeys : Obligations.InitLoadsRoundKeys :=
  fun s e _ key he htbl h1 h16 hre => exec_init_of_pass he ((initReject_none_iff s.cfg e key).mpr ⟨htbl, h1, h16, hre⟩)

/-- Settles O19. -/
theorem tableReadGivesEntry : Obligations.TableReadGivesEntry := tableRead_some

/-! ### What the key schedule reads (R69) -/

/-- R69: the schedule looks up tables 4 to 7 alone. -/
theorem scheduleWords_congr_tables {sbox sbox' : Option Tables} (key : List Byte)
    (h : ∀ (t : Fin 8) (b : Byte), 4 ≤ t.val → tableRead sbox t b = tableRead sbox' t b) :
    scheduleWords sbox key = scheduleWords sbox' key := by
  have h4 (b : Byte) : tableRead sbox 4 b = tableRead sbox' 4 b := h 4 b (by decide)
  have h5 (b : Byte) : tableRead sbox 5 b = tableRead sbox' 5 b := h 5 b (by decide)
  have h6 (b : Byte) : tableRead sbox 6 b = tableRead sbox' 6 b := h 6 b (by decide)
  have h7 (b : Byte) : tableRead sbox 7 b = tableRead sbox' 7 b := h 7 b (by decide)
  have hmix : mix sbox = mix sbox' := by funext a b c d; simp only [mix, h4, h5, h6, h7]
  have hxz : transformXZ sbox = transformXZ sbox' := by funext x; simp only [transformXZ, hmix, h4, h5, h6, h7]
  have hzx : transformZX sbox = transformZX sbox' := by funext z; simp only [transformZX, hmix, h4, h5, h6, h7]
  have hA : emitA sbox = emitA sbox' := by funext a; simp only [emitA, hmix, h4, h5, h6, h7]
  have hB : emitB sbox = emitB sbox' := by funext a; simp only [emitB, hmix, h4, h5, h6, h7]
  have hC : emitC sbox = emitC sbox' := by funext a; simp only [emitC, hmix, h4, h5, h6, h7]
  have hD : emitD sbox = emitD sbox' := by funext a; simp only [emitD, hmix, h4, h5, h6, h7]
  simp only [scheduleWords, fourStages, hxz, hzx, hA, hB, hC, hD]

/-- R67, R68: the round keys are a function of the schedule words. -/
theorem keySchedule_eq_of_words {family : Family} {sbox sbox' : Option Tables} {key key' : List Byte}
    (h : scheduleWords sbox key = scheduleWords sbox' key') :
    keySchedule family sbox key = keySchedule family sbox' key' := by
  cases family
  simp only [keySchedule, h]

/-- The words of four stages are all zero where all lookups of tables 4 to 7 are. -/
theorem fourStages_words_zero {sbox : Option Tables} (x : Array16)
    (h : ∀ (t : Fin 8) (b : Byte), 4 ≤ t.val → tableRead sbox t b = 0) :
    (fourStages sbox x).2 = Vector.replicate 16 0 := by
  have h4 (b : Byte) : tableRead sbox 4 b = 0 := h 4 b (by decide)
  have h5 (b : Byte) : tableRead sbox 5 b = 0 := h 5 b (by decide)
  have h6 (b : Byte) : tableRead sbox 6 b = 0 := h 6 b (by decide)
  have h7 (b : Byte) : tableRead sbox 7 b = 0 := h 7 b (by decide)
  simp only [fourStages, emitA, emitB, emitC, emitD, mix, h4, h5, h6, h7, BitVec.xor_self]
  rfl

/-- R69: lookups of zero give schedule words of zero. -/
theorem scheduleWords_zero {sbox : Option Tables} (key : List Byte)
    (h : ∀ (t : Fin 8) (b : Byte), 4 ≤ t.val → tableRead sbox t b = 0) :
    scheduleWords sbox key = (Vector.replicate 16 0, Vector.replicate 16 0) := by
  simp only [scheduleWords, fourStages_words_zero _ h]

/-- R67, R68: schedule words of zero give round keys of zero. -/
theorem keySchedule_zero {sbox : Option Tables} {key : List Byte}
    (h : scheduleWords sbox key = (Vector.replicate 16 0, Vector.replicate 16 0)) :
    keySchedule .cast128 sbox key = (Vector.replicate 16 0, Vector.replicate 16 0) := by
  simp only [keySchedule, h, Vector.map_replicate]
  rfl

/-! ### The entries that 12 rounds read (R69) -/

/-- A round function reads the round keys of its own round. -/
theorem roundFunction_congr_keys (family : Family) (sbox : Option Tables) {km km' : Vector Word 16}
    {kr kr' : Vector Rotation 16} {r : Fin 16} (hm : km[r.val] = km'[r.val]) (hr : kr[r.val] = kr'[r.val]) :
    roundFunction family sbox km kr r = roundFunction family sbox km' kr' r := by
  funext d
  simp only [roundFunction, hm, hr]

/-- Round functions that agree on the rounds of an order do the same rounds. -/
theorem feistelRounds_congr {f g : Fin 16 → Word → Word} {order : List (Fin 16)} (h : ∀ r ∈ order, f r = g r)
    (p : Word × Word) : feistelRounds f order p = feistelRounds g order p :=
  List.foldl_ext _ _ p fun q r hr => by rw [feistelRound, feistelRound, h r hr]

/-- The rounds of either command with 12 rounds are rounds 1 to 12. -/
theorem mem_forwardOrder_false {r : Fin 16} (h : r ∈ forwardOrder false) : r.val < 12 :=
  (by decide : ∀ r ∈ forwardOrder false, r.val < 12) r h

/-- R69, R80: on an order of rounds up to 12, the reply reads no round key beyond them. -/
theorem blockCommand_reply_congr_keys {order : Bool → List (Fin 16)} (ho : ∀ r ∈ order false, r.val < 12)
    (cfg : Params) {e e' : Engine} (data : List Byte) (hr : e.r16 = false) (hr' : e'.r16 = false)
    (hi : e.inited = e'.inited)
    (hk : ∀ r : Fin 16, r.val < 12 → e.km[r.val] = e'.km[r.val] ∧ e.kr[r.val] = e'.kr[r.val]) :
    (blockCommand order data cfg e).2 = (blockCommand order data cfg e').2 := by
  have hround : ∀ r ∈ order false, e.roundFn cfg r = e'.roundFn cfg r := by
    intro r hmem
    obtain ⟨hkm, hkr⟩ := hk r (ho r hmem)
    exact roundFunction_congr_keys cfg.family cfg.sbox hkm hkr
  cases hi' : e'.inited with
  | false => rw [blockCommand_of_not_inited _ _ _ (hi.trans hi'), blockCommand_of_not_inited _ _ _ hi']; rfl
  | true =>
    by_cases hlen : data.length = 8
    · obtain ⟨p, rfl⟩ := exists_joinBlock_eq hlen
      rw [blockCommand_joinBlock _ _ _ (hi.trans hi'), blockCommand_joinBlock _ _ _ hi', hr, hr', transform,
        feistelRounds_congr hround]
      rfl
    · rw [blockCommand_of_length_ne _ _ (hi.trans hi') hlen, blockCommand_of_length_ne _ _ hi' hlen]
      rfl

/-- Settles O25, clause by clause: the key schedule is a function, `padKey` is all it reads of the key, tables 4 to 7
are all it reads of the tables, and 12 rounds read 12 entries. -/
theorem keyScheduleProperties : Obligations.KeyScheduleProperties := by
  refine ⟨?function, ?padded, ?tables, ?zero, ?unread⟩
  case function =>
    intro s s' e e' fe fe' key he he' hi hi' htbl hsbox hfam h1 h16
    refine ⟨_, _, _, initLoadsRoundKeys s e fe key he htbl h1 h16 (by simp [hi]), ?_⟩
    have h := initLoadsRoundKeys s' e' fe' key he' (hsbox ▸ htbl) h1 h16 (by simp [hi'])
    rwa [hsbox, hfam] at h
  case padded => exact fun family sbox key key' h => keySchedule_eq_of_words (scheduleWords_congr sbox h)
  case tables =>
    intro S S' key h
    refine keySchedule_eq_of_words (scheduleWords_congr_tables key fun t b ht => ?_)
    simp only [tableRead_some, h t ht]
  case zero =>
    intro S key h
    have hwords := scheduleWords_zero (sbox := some S) key fun t b ht => by simp [tableRead_some, h t ht]
    exact ⟨hwords, keySchedule_zero hwords⟩
  case unread =>
    intro cfg e e' data hr hr' hi hk
    refine ⟨blockCommand_reply_congr_keys (fun r => mem_forwardOrder_false) cfg data hr hr' hi hk,
      blockCommand_reply_congr_keys (fun r hmem => ?_) cfg data hr hr' hi hk⟩
    exact mem_forwardOrder_false (List.mem_reverse.mp hmem)

end Sys2Proof.Machine
end

section
/-! `ENC` and `DEC` (`spec/41_block_transform.md`): the rounds as a sequence of pairs (R75 to R78), the inverse (R79),
rounds 13 to 16 (R81), and the tables of zeros. -/

namespace Sys2Proof.Machine

/-- Settles O30. -/
theorem feistelInverse : Obligations.FeistelInverse := transform_reverse_transform

/-- Settles O34: the order of 16 rounds is that of 12 with four more. -/
theorem sixteenRoundsContinueTwelve : Obligations.SixteenRoundsContinueTwelve := by
  intro f p
  have horder : forwardOrder true = forwardOrder false ++ [12, 13, 14, 15] := by decide
  rw [horder, feistelRounds_append]

/-! ### The rounds as a sequence -/

/-- Rounds 1 to `n + 1` are rounds 1 to `n` and one more. -/
theorem take_finRange_succ {n : Nat} (h : n < 16) :
    (List.finRange 16).take (n + 1) = (List.finRange 16).take n ++ [⟨n, h⟩] := by
  rw [List.take_succ_eq_append_getElem (by simpa using h), List.getElem_finRange]
  rfl

/-- R75, R76: a sequence of pairs that goes on by rounds is at `p n` after `n` rounds. -/
theorem feistelRounds_take {f : Fin 16 → Word → Word} {p : Nat → Word × Word}
    (h : ∀ r : Fin 16, p (r.val + 1) = feistelRound f (p r.val) r) {n : Nat} (hn : n ≤ 16) :
    feistelRounds f ((List.finRange 16).take n) (p 0) = p n := by
  induction n with
  | zero => rfl
  | succ n ih =>
    rw [take_finRange_succ hn, feistelRounds_append, ih (Nat.le_of_succ_le hn)]
    exact (h ⟨n, hn⟩).symm

/-- R75, R77: a sequence of pairs that goes down by rounds is at `p 0` after the rounds from `n` down. -/
theorem feistelRounds_take_reverse {f : Fin 16 → Word → Word} {p : Nat → Word × Word}
    (h : ∀ r : Fin 16, p r.val = feistelRound f (p (r.val + 1)) r) {n : Nat} (hn : n ≤ 16) :
    feistelRounds f ((List.finRange 16).take n).reverse (p n) = p 0 := by
  induction n with
  | zero => rfl
  | succ n ih =>
    calc feistelRounds f ((List.finRange 16).take (n + 1)).reverse (p (n + 1))
        = feistelRounds f ((List.finRange 16).take n).reverse (feistelRound f (p (n + 1)) ⟨n, hn⟩) := by
          rw [take_finRange_succ hn, List.reverse_append]; rfl
      _ = feistelRounds f ((List.finRange 16).take n).reverse (p n) := by rw [← h ⟨n, hn⟩]
      _ = p 0 := ih (Nat.le_of_succ_le hn)

theorem rounds_le (r16 : Bool) : rounds r16 ≤ 16 := by
  cases r16 <;> decide

/-- R76 to R78: on an initialised engine the command answers the pair that its rounds reach, right half first. -/
theorem exec_block {s : State} {e : Engine} {i : Instr} {order : Bool → List (Fin 16)} {p q : Word × Word}
    (he : s.engines[s.port]? = some e) (hi : e.inited = true) (hc : commandOf i = blockCommand order (joinBlock p))
    (hq : feistelRounds (e.roundFn s.cfg) (order e.r16) p = q) :
    exec i s = .next (s.answered e ([0x00, 0x08, 0x00] ++ joinBlock q.swap)) := by
  refine exec_of_respond_eight he ?_ (joinBlock_length _)
  rw [hc, blockCommand_joinBlock order p s.cfg hi, transform, hq]

/-- R31: eight bytes are the bytes of their two halves. -/
theorem joinBlock_be32 (d0 d1 d2 d3 d4 d5 d6 d7 : Byte) :
    joinBlock (be32 d0 d1 d2 d3, be32 d4 d5 d6 d7) = [d0, d1, d2, d3, d4, d5, d6, d7] := by
  simp only [joinBlock, bytesOf32_be32]
  rfl

/-- Settles O27: the sequence starts at the halves of the block and is the run of rounds 1 to `ROUNDS`. -/
theorem encryptsBlock : Obligations.EncryptsBlock := by
  rintro s e d0 d1 d2 d3 d4 d5 d6 d7 p he hi h0 hp q rfl
  refine exec_block (p := p 0) (order := forwardOrder) he hi ?_ (feistelRounds_take hp (rounds_le e.r16))
  rw [h0, joinBlock_be32]
  rfl

/-- Settles O28: the sequence holds the halves of the block at `ROUNDS` and is the run of rounds `ROUNDS` to 1. -/
theorem decryptsBlock : Obligations.DecryptsBlock := by
  intro s e d0 d1 d2 d3 d4 d5 d6 d7 p he hi hn hp
  refine exec_block (p := p (rounds e.r16)) (order := backwardOrder) he hi ?_
    (feistelRounds_take_reverse hp (rounds_le e.r16))
  rw [show p (rounds e.r16) = _ from hn, joinBlock_be32]
  rfl

/-! ### Tables of zeros -/

/-- R71 to R74: with lookups of zero in tables 0 to 3, every round function is zero. -/
theorem roundFunction_zero (family : Family) {sbox : Option Tables} (km : Vector Word 16) (kr : Vector Rotation 16)
    (h : ∀ (t : Fin 8) (b : Byte), t.val < 4 → tableRead sbox t b = 0) (r : Fin 16) (d : Word) :
    roundFunction family sbox km kr r d = 0 := by
  have h0 (b : Byte) : tableRead sbox 0 b = 0 := h 0 b (by decide)
  have h1 (b : Byte) : tableRead sbox 1 b = 0 := h 1 b (by decide)
  have h2 (b : Byte) : tableRead sbox 2 b = 0 := h 2 b (by decide)
  have h3 (b : Byte) : tableRead sbox 3 b = 0 := h 3 b (by decide)
  simp [roundFunction, roundA, roundB, roundC, combineA, combineB, combineC, add32, sub32, h0, h1, h2, h3]

/-- A round whose function is zero exchanges the halves. -/
theorem feistelRound_of_zero {f : Fin 16 → Word → Word} (h : ∀ r d, f r d = 0) (p : Word × Word) (r : Fin 16) :
    feistelRound f p r = p.swap := by
  simp [feistelRound, h, Prod.swap]

/-- So an even number of them does nothing. -/
theorem feistelRounds_of_zero {f : Fin 16 → Word → Word} (h : ∀ r d, f r d = 0) {order : List (Fin 16)}
    (heven : Even order.length) (p : Word × Word) : feistelRounds f order p = p := by
  have hswap : feistelRound f = fun q _ => q.swap := by
    funext q r
    exact feistelRound_of_zero h q r
  rw [feistelRounds, hswap, List.foldl_const, Function.Involutive.iterate_even Prod.swap_swap heven]
  rfl

theorem forwardOrder_length_even (r16 : Bool) : Even (forwardOrder r16).length := by
  cases r16 <;> decide

theorem backwardOrder_length_even (r16 : Bool) : Even (backwardOrder r16).length := by
  rw [backwardOrder_eq_reverse, List.length_reverse]
  exact forwardOrder_length_even r16

/-- Settles O33: 12 and 16 exchanges undo each other, and the swap at the end is left. -/
theorem zeroTablesExchangeHalves : Obligations.ZeroTablesExchangeHalves := by
  intro s e S d0 d1 d2 d3 d4 d5 d6 d7 he hi hS hzero
  have hread (t : Fin 8) (b : Byte) (ht : t.val < 4) : tableRead s.cfg.sbox t b = 0 := by
    rw [hS, tableRead_some]
    exact hzero t b.toFin ht
  have hround : ∀ r d, e.roundFn s.cfg r d = 0 := roundFunction_zero s.cfg.family e.km e.kr hread
  have hf := feistelRounds_of_zero hround (forwardOrder_length_even e.r16) (be32 d0 d1 d2 d3, be32 d4 d5 d6 d7)
  have hb := feistelRounds_of_zero hround (backwardOrder_length_even e.r16) (be32 d0 d1 d2 d3, be32 d4 d5 d6 d7)
  have henc := exec_block (i := .enc (joinBlock _)) he hi rfl hf
  have hdec := exec_block (i := .dec (joinBlock _)) he hi rfl hb
  rw [Prod.swap_prod_mk, joinBlock_be32, joinBlock_be32] at henc hdec
  exact ⟨henc, hdec⟩

end Sys2Proof.Machine
end

section
/-! `PWDEC`, `SERDEC` and `STAT` (`spec/42_field_ciphers.md` R83 to R88, `spec/43_status.md` R90): what they answer. -/

namespace Sys2Proof.Machine

/-! ### `PWDEC` -/

/-- R83, R84: the bytes of the password cipher before stripping, by position. -/
theorem passwordBytes_take (a b : FieldKey) {n : Nat} {buf : List Byte} (hn : n ≤ buf.length) :
    passwordBytes a b 0 (buf.take n) =
      (List.range n).map fun i =>
        buf.getD i 0 ^^^ a[i * 44 % 32]'(Nat.mod_lt _ (by decide)) ^^^ b[i * 99 % 32]'(Nat.mod_lt _ (by decide)) := by
  refine List.ext_getElem? fun j => ?_
  rw [passwordBytes_getElem?, List.getElem?_map, List.getElem?_take]
  by_cases hj : j < n
  · simp [hj, List.getElem?_eq_getElem (Nat.lt_of_lt_of_le hj hn), indexA, indexB]
  · simp [hj]

/-- R88: the output of the password cipher has at most 32 bytes. -/
theorem passwordOutput_length_le (a b : FieldKey) (dlen : Byte) (buf : List Byte) :
    (passwordOutput a b dlen buf).length ≤ 32 := by
  obtain ⟨-, -, hcap⟩ := processed_le dlen.toNat buf.length passwordCap
  refine (strip_length_le _ _).trans ?_
  rw [passwordBytes_length, List.length_take]
  exact (Nat.min_le_left _ _).trans hcap

/-- A command that responds, with the response frame written out. -/
theorem exec_of_respond {s : State} {e e' : Engine} {i : Instr} {p : List Byte} (he : s.engines[s.port]? = some e)
    (hc : commandOf i s.cfg e = respond e' p) :
    exec i s = .next (s.answered e'
      (0x00 :: BitVec.ofNat 8 (p.length % 256) :: BitVec.ofNat 8 (p.length / 256) :: p)) := by
  rw [exec_of_some i he, hc, respond_engine, respond_reply, responseFrame_ok]

/-- Settles O35: the statement's list is `passwordBytes` of the bytes processed, and `strip` its filter. -/
theorem passwordCipherAnswers : Obligations.PasswordCipherAnswers := by
  rintro s e dlen buf he n p rfl hp
  obtain ⟨-, hbuf, -⟩ := processed_le dlen.toNat buf.length passwordCap
  obtain rfl : passwordOutput s.cfg.pwkeyA s.cfg.pwkeyB dlen buf = p := by
    rw [hp, passwordOutput, passwordBytes_take _ _ hbuf]
    rfl
  have hlen := passwordOutput_length_le s.cfg.pwkeyA s.cfg.pwkeyB dlen buf
  refine ⟨hlen, ?_⟩
  have hexec := exec_of_respond (i := .pwdec dlen buf) he rfl
  rwa [Nat.mod_eq_of_lt (by omega), Nat.div_eq_of_lt (by omega)] at hexec

/-! ### `SERDEC` -/

/-- R86: 156 added to a byte, as arithmetic modulo 256. -/
theorem add_serialOffset (b : Byte) : b + serialOffset = BitVec.ofNat 8 ((b.toNat + 156) % 256) := by
  apply BitVec.eq_of_toNat_eq
  simp [serialOffset, BitVec.toNat_add]

/-- R88: the output of the serial cipher has at most `SER_CAP` bytes, and no more than the declared length can say. -/
theorem serialOutput_length_le (serCap : Nat) (dlen : Half) (buf : List Byte) :
    (serialOutput serCap dlen buf).length ≤ min serCap 65535 := by
  obtain ⟨hdecl, -, hcap⟩ := processed_le dlen.toNat buf.length serCap
  have hlt := dlen.isLt
  refine (strip_length_le _ _).trans ?_
  rw [serialBytes_length, List.length_take]
  omega

/-- Settles O38: the statement's list is `serialBytes` of the bytes processed, and `strip` its filter. -/
theorem serialCipherAnswers : Obligations.SerialCipherAnswers := by
  rintro s e dlen buf he n p rfl hp
  obtain rfl : serialOutput s.cfg.serCap dlen buf = p := by
    rw [hp]
    simp only [serialOutput, serialBytes, add_serialOffset]
    rfl
  exact ⟨serialOutput_length_le s.cfg.serCap dlen buf, exec_of_respond he rfl⟩

/-! ### The tail of the buffer -/

/-- R88: bytes after a buffer that reaches the declared length or the cap are not processed. -/
theorem take_processed_append {n cap : Nat} {buf : List Byte} (tail : List Byte)
    (h : n ≤ buf.length ∨ cap ≤ buf.length) :
    (buf ++ tail).take (processed n (buf ++ tail).length cap) = buf.take (processed n buf.length cap) := by
  have hsame : processed n (buf ++ tail).length cap = processed n buf.length cap := by
    simp only [processed, List.length_append]
    omega
  obtain ⟨-, hbuf, -⟩ := processed_le n buf.length cap
  rw [hsame, List.take_append_of_le_length hbuf]

/-- Settles O40: either cipher responds for every buffer, with an output of the bytes processed. -/
theorem fieldCiphersIgnoreTail : Obligations.FieldCiphersIgnoreTail := by
  refine fun s e buf tail he => ⟨fun dlen => ?_, fun dlen => ?_⟩
  · refine ⟨_, exec_of_respond he rfl, fun h => exec_of_respond he ?_⟩
    simp only [commandOf, pwdecCommand, passwordOutput, take_processed_append tail (cap := passwordCap) h]
  · refine ⟨_, exec_of_respond he rfl, fun h => exec_of_respond he ?_⟩
    simp only [commandOf, serdecCommand, serialOutput, take_processed_append tail h]

/-! ### `STAT` -/

/-- R22, R90: the status byte as a sum, which fits a byte. -/
theorem statusByte_toNat (tblOk : Bool) (e : Engine) :
    (statusByte tblOk e).toNat = tblOk.toNat + 2 * e.inited.toNat + 4 * e.fenc.toNat + 8 * e.r16.toNat := by
  have htbl := tblOk.toNat_le
  have hinited := e.inited.toNat_le
  have hfenc := e.fenc.toNat_le
  have hr16 := e.r16.toNat_le
  rw [statusByte, BitVec.toNat_ofNat]
  omega

/-- R3: `TBL_OK` as a number. -/
theorem tblOk_toNat (cfg : Params) : cfg.tblOk.toNat = if cfg.sbox = none then 0 else 1 := by
  rw [Params.tblOk]
  cases cfg.sbox <;> rfl

/-- A flag of weight `n`. -/
theorem mul_toNat_eq_ite (n : Nat) (b : Bool) : n * b.toNat = if b then n else 0 := by
  cases b <;> simp

/-- Settles O42: the payload is the status byte, a sum of the flags by weight. -/
theorem statusAnswers : Obligations.StatusAnswers := by
  intro s e he
  refine ⟨statusByte s.cfg.tblOk e, by simpa using exec_of_respond (i := .stat) he rfl, ?_⟩
  rw [statusByte_toNat, tblOk_toNat, mul_toNat_eq_ite, mul_toNat_eq_ite, mul_toNat_eq_ite]

end Sys2Proof.Machine
end

section
/-! What a command leaves unchanged (`spec/10_state.md` section 1, `spec/20_memory.md` section 3) and does not show
(R19, R20, R90). -/

namespace Sys2Proof.Machine

/-- Settles O44: a command writes back one engine, and one that is no `INIT` the engine that was there. -/
theorem commandFrame : Obligations.CommandFrame := by
  intro i s t h
  obtain ⟨e, he, rfl⟩ := exec_next h
  refine ⟨rfl, rfl, rfl, rfl, rfl, ⟨_, rfl⟩, List.length_set, fun k hk => List.getElem?_set_ne hk.symm, fun hno => ?_⟩
  obtain hsame | ⟨fe, key, rfl, -, -⟩ := commandOf_engine i s.cfg e
  · rw [State.answered_engines, hsame, engines_set_self he]
  · exact absurd rfl (hno fe key)

/-- R57: the tests of `INIT` look at `INITED` alone of the engine. -/
theorem initReject_congr (cfg : Params) {e e' : Engine} (key : List Byte) (hi : e'.inited = e.inited) :
    initReject cfg e' key = initReject cfg e key := by
  simp only [initReject, hi]

/-- R57: so does the reply of `INIT`. -/
theorem initCommand_reply_congr (fe : Bool) (key : List Byte) (cfg : Params) {e e' : Engine}
    (hi : e'.inited = e.inited) : (initCommand fe key cfg e').2 = (initCommand fe key cfg e).2 := by
  unfold initCommand
  rw [initReject_congr cfg key hi]
  cases initReject cfg e key <;> rfl

/-- R90: the status byte looks at the flags alone. -/
theorem statusByte_congr (tblOk : Bool) {e e' : Engine} (hi : e'.inited = e.inited) (hf : e'.fenc = e.fenc)
    (hr : e'.r16 = e.r16) : statusByte tblOk e' = statusByte tblOk e := by
  simp only [statusByte, hi, hf, hr]

/-- R19, R20, R90: a command other than `ENC` and `DEC` replies by the flags, not by the round keys. -/
theorem commandOf_reply_congr {i : Instr} (hno : ∀ data, i ≠ .enc data ∧ i ≠ .dec data) (cfg : Params)
    {e e' : Engine} (hi : e'.inited = e.inited) (hf : e'.fenc = e.fenc) (hr : e'.r16 = e.r16) :
    (commandOf i cfg e').2 = (commandOf i cfg e).2 := by
  cases i with
  | init fe key => exact initCommand_reply_congr fe key cfg hi
  | enc data => exact absurd rfl (hno data).1
  | dec data => exact absurd rfl (hno data).2
  | pwdec dlen buf => rfl
  | serdec dlen buf => rfl
  | stat => simp only [commandOf, statCommand, respond_reply, statusByte_congr cfg.tblOk hi hf hr]

/-- Settles O50: both states send the response frame of one reply. -/
theorem roundKeysDoNotShow : Obligations.RoundKeysDoNotShow := by
  intro i s s' e e' hno he he' hcfg hi hf hr
  refine ⟨_, _, responseFrame (commandOf i s.cfg e).2, exec_of_some i he, exec_of_some i he', rfl, ?_⟩
  rw [State.answered_outputs, hcfg, commandOf_reply_congr hno s.cfg hi hf hr]

end Sys2Proof.Machine
end

section
/-! Runs (`spec/60_exceptions.md` R92, R103, `spec/70_reset_and_hazards.md` R114): a frame after a reject, `ENC` after
`INIT`, one response for each frame, and runs that never stop. -/

namespace Sys2Proof.Machine

/-! ### Two frames -/

/-- R102: a frame that is answered with a status other than `OK` leaves the engines. -/
theorem engines_after_reject {s : State} {k : Nat} {f : Frame} {e : Engine} (he : s.engines[k]? = some e)
    (h : (frameCommand f s.cfg e).2.status ≠ .ok) : s.engines.set k (frameCommand f s.cfg e).1 = s.engines := by
  obtain hok | ⟨st, hc⟩ := frameCommand_reject f s.cfg e
  · exact absurd hok h
  · rw [hc, reject_engine, engines_set_self he]

/-- Settles O46: the rejected frame leaves the engines, so the next frame finds the same engine in both runs. -/
theorem rejectsAreNotSticky : Obligations.RejectsAreNotSticky := by
  intro s k j f g rest e t r ha hj hstep hout hhead
  cases (step_accepts ha).symm.trans hstep
  obtain ⟨-, hr, he⟩ := ha
  obtain rfl : responseFrame (frameCommand f s.cfg e).2 = r := by simpa using hout
  have hengines := engines_after_reject he (status_ne_ok_of_head hhead)
  have hj' : s.engines[j]? = some s.engines[j] := List.getElem?_eq_getElem hj
  have hg : State.Accepts { s with inputs := .present j g :: rest } j g rest s.engines[j] := ⟨rfl, hr, hj'⟩
  have ht : ((s.accepted k (.present j g :: rest)).answered (frameCommand f s.cfg e).1
      (responseFrame (frameCommand f s.cfg e).2)).Accepts j g rest s.engines[j] :=
    ⟨rfl, hr, (congrArg (·[j]?) hengines).trans hj'⟩
  refine ⟨_, _, responseFrame (frameCommand g s.cfg s.engines[j]).2, step_accepts ht, step_accepts hg, ?_, ?_, rfl⟩
  · exact congrArg (·.set j (frameCommand g s.cfg s.engines[j]).1) hengines
  · exact List.append_assoc ..

/-- R40, R51: the frame of a well-formed command runs that command. -/
theorem frameCommand_encode {i : Instr} (hwf : i.wf = true) : frameCommand (encode i) = commandOf i := by
  rw [frameCommand, decodeOfEncode i hwf]

/-- A byte string with two halves is the bytes of its halves. -/
theorem eq_joinBlock_of_splitBlock {data : List Byte} {p : Word × Word} (h : splitBlock data = some p) :
    data = joinBlock p := by
  have hlen : data.length = 8 := by
    by_contra hne
    cases ((splitBlock_none_iff data).mpr hne).symm.trans h
  obtain ⟨q, rfl⟩ := exists_joinBlock_eq hlen
  cases (splitBlock_joinBlock q).symm.trans h
  rfl

/-- R50, R78: the response frame of a block. -/
theorem responseFrame_joinBlock (p : Word × Word) :
    responseFrame ⟨.ok, joinBlock p⟩ = [0x00, 0x08, 0x00] ++ joinBlock p := by
  rw [responseFrame_ok, joinBlock_length]
  rfl

/-- A step that executes the frame of a well-formed command which responds. -/
theorem step_of_respond {s : State} {k : Nat} {i : Instr} {rest : List HostAction} {e e' : Engine} {p : List Byte}
    (ha : s.Accepts k (encode i) rest e) (hwf : i.wf = true) (hc : commandOf i s.cfg e = respond e' p) :
    step s = .next ((s.accepted k rest).answered e' (responseFrame ⟨.ok, p⟩)) := by
  rw [step_accepts ha, frameCommand_encode hwf, hc, respond_engine, respond_reply]

/-- Settles O47: the first step leaves `initEngine` behind the port, and the second transforms the block with it. -/
theorem encryptAfterInit : Obligations.EncryptAfterInit := by
  rintro s k e fe key data p rest ha htbl h1 h16 hi hp ks q rfl rfl
  obtain rfl := eq_joinBlock_of_splitBlock hp
  have hpass : initReject s.cfg e key = none :=
    (initReject_none_iff s.cfg e key).mpr ⟨htbl, h1, h16, fun hi' => absurd (hi.symm.trans hi') (by decide)⟩
  have hinit := step_of_respond (e' := initEngine s.cfg fe key) (p := []) ha ((Instr.wf_init fe key).mpr (by omega))
    (by simp [commandOf, initCommand, hpass])
  obtain ⟨-, hr, he⟩ := ha
  have hk : k < s.engines.length := (List.getElem?_eq_some_iff.mp he).1
  have henc : ((s.accepted k (.present k (encode (.enc (joinBlock p))) :: rest)).answered (initEngine s.cfg fe key)
      (responseFrame ⟨.ok, []⟩)).Accepts k (encode (.enc (joinBlock p))) rest (initEngine s.cfg fe key) :=
    ⟨rfl, hr, List.getElem?_set_self hk⟩
  have hwf : (Instr.enc (joinBlock p)).wf = true := (Instr.wf_enc _).mpr (by simp)
  refine ⟨_, (run_succ_of_next 1 hinit).trans (run_succ_of_next 0
    (step_of_respond henc hwf (blockCommand_joinBlock forwardOrder p s.cfg rfl))), rfl, ?_⟩
  rw [State.answered_outputs, State.accepted_outputs, State.answered_outputs, State.accepted_outputs,
    List.append_assoc, responseFrame_reject, responseFrame_joinBlock]
  rfl

/-! ### Many frames -/

/-- R92: where its frame is for a port the block has, a step answers. -/
theorem step_answers {s : State} (h : s.PortsExist) : ∃ t, step s = .next t := by
  obtain ⟨-, hs⟩ | ⟨_, _, _, _, -, hs⟩ | ⟨_, _, _, -, -, hs⟩ | ⟨_, _, -, hs⟩ | ⟨_, -, hs⟩ |
    ⟨k, f, rest, hi, -, hk, -⟩ := step_cases s
  case inr.inr.inr.inr.inr =>
    have hlt : k < s.engines.length := h k f (hi ▸ List.mem_cons_self)
    omega
  all_goals exact ⟨_, hs⟩

/-- R117: a step takes at most the first of the coming actions. -/
theorem step_inputs {s t : State} (h : step s = .next t) : t.inputs = s.inputs.tail := by
  obtain ⟨hi, hs⟩ | ⟨_, _, _, _, ⟨hi, -, -⟩, hs⟩ | ⟨_, _, _, hi, -, hs⟩ | ⟨_, _, hi, hs⟩ | ⟨rest, hi, hs⟩ |
    ⟨_, _, _, -, -, -, hs⟩ := step_cases s <;> cases hs.symm.trans h
  case inr.inr.inr.inr.inl =>
    obtain ⟨-, -, hin, -⟩ := (s.expect rest).releaseReset_frame
    rw [hin, hi]
    rfl
  all_goals
    rw [hi]
    rfl

/-- The frames after a step are for ports that the block still has. -/
theorem State.PortsExist.step {s t : State} (hp : s.PortsExist) (h : step s = .next t) : t.PortsExist := by
  intro k f hmem
  rw [step_inputs h] at hmem
  rw [step_engines_length h]
  exact hp k f (List.mem_of_mem_tail hmem)

/-- Settles O57, by induction on the number of steps: each answers, and the frames left are for ports that exist. -/
theorem runsNeverStop : Obligations.RunsNeverStop := by
  intro n
  induction n with
  | zero => exact fun s _ => ⟨s, rfl⟩
  | succ n ih =>
    intro s hp
    obtain ⟨u, hu⟩ := step_answers hp
    rw [run_succ_of_next n hu]
    exact ih u (hp.step hu)

/-- R40, R50: a frame for a port that exists, out of reset, is answered by one response on that port. -/
theorem step_responds {s : State} {k : Nat} {f : Frame} {rest : List HostAction}
    (hi : s.inputs = .present k f :: rest) (hr : s.inReset = false) (hk : k < s.engines.length) :
    ∃ u r, step s = .next u ∧ u.inputs = rest ∧ u.inReset = false ∧ u.outputs = s.outputs ++ [⟨k, r⟩] :=
  ⟨_, _, step_accepts ⟨hi, hr, List.getElem?_eq_getElem hk⟩, rfl, hr, rfl⟩

/-- Settles O48, by induction on the frames: each step takes one frame and adds one response on its port. -/
theorem oneResponsePerFrame : Obligations.OneResponsePerFrame := by
  intro s fs
  induction fs generalizing s with
  | nil => exact fun _ _ hin => ⟨s, [], rfl, hin, by simp, rfl⟩
  | cons x fs ih =>
    intro hr hports hin
    obtain ⟨hx, hfs⟩ := List.forall_mem_cons.mp hports
    obtain ⟨u, r, hstep, hin', hr', hout'⟩ := step_responds hin hr hx
    rw [← step_engines_length hstep] at hfs
    obtain ⟨t, rs, hrun, hdone, hout, hrs⟩ := ih u hr' hfs hin'
    refine ⟨t, ⟨x.1, r⟩ :: rs, (run_succ_of_next fs.length hstep).trans hrun, hdone, ?_, ?_⟩
    · rw [hout, hout', List.append_assoc]
      rfl
    · rw [List.map_cons, List.map_cons, hrs]

end Sys2Proof.Machine
end

section
/-! The engines are independent (`spec/20_memory.md` R38): the run of all actions simulates, for engine `k`, the run of
the actions that concern it. -/

namespace Sys2Proof.Machine

/-! ### The actions and the responses of one engine -/

/-- An action concerns engine `k` unless it is a frame on another port. -/
def Concerns (k : Nat) (a : HostAction) : Prop := ∀ j f, a = .present j f → j = k

/-- An action that concerns engine `k` is one of its actions. -/
theorem actionsOf_cons_of_concerns {k : Nat} {a : HostAction} (h : Concerns k a) (as : List HostAction) :
    actionsOf k (a :: as) = a :: actionsOf k as := by
  cases a with
  | present j f =>
    obtain rfl := h j f rfl
    simp [actionsOf]
  | assertReset l => rfl
  | releaseReset => rfl

/-- A frame on another port is not. -/
theorem actionsOf_cons_other {j k : Nat} (h : j ≠ k) (f : Frame) (as : List HostAction) :
    actionsOf k (.present j f :: as) = actionsOf k as := by
  simp [actionsOf, h]

/-- A response on port `k` is added to its responses. -/
theorem responsesOf_append_own (k : Nat) (rs : List Response) (r : Frame) :
    responsesOf k (rs ++ [⟨k, r⟩]) = responsesOf k rs ++ [⟨k, r⟩] := by
  simp [responsesOf]

/-- A response on another port is not seen. -/
theorem responsesOf_append_other {j k : Nat} (h : j ≠ k) (rs : List Response) (r : Frame) :
    responsesOf k (rs ++ [⟨j, r⟩]) = responsesOf k rs := by
  simp [responsesOf, h]

/-! ### The simulation -/

/-- Two states that agree on all that engine `k` depends on, and on what it has sent. -/
structure AgreeOn (k : Nat) (s s' : State) : Prop where
  cfg : s'.cfg = s.cfg
  inReset : s'.inReset = s.inReset
  resets : s'.resets = s.resets
  engine : s'.engines[k]? = s.engines[k]?
  responses : responsesOf k s'.outputs = responsesOf k s.outputs

namespace AgreeOn

variable {k : Nat} {s s' t t' : State}

/-- The coming actions are no part of what the states agree on. -/
theorem expect (h : AgreeOn k s s') (as as' : List HostAction) : AgreeOn k (s.expect as) (s'.expect as') :=
  ⟨h.cfg, h.inReset, h.resets, h.engine, h.responses⟩

/-- A frame on another port concerns neither the engine nor its responses. -/
theorem step_other {j : Nat} {f : Frame} {rest : List HostAction} (h : AgreeOn k s s') (hjk : j ≠ k)
    (hi : s.inputs = .present j f :: rest) (hs : step s = .next t) : AgreeOn k t s' := by
  cases hr : s.inReset with
  | true =>
    cases (step_inReset hi hr).symm.trans hs
    exact ⟨h.cfg, h.inReset, h.resets, h.engine, h.responses⟩
  | false =>
    cases he : s.engines[j]? with
    | none => cases (step_noSuchPort hi hr (List.getElem?_eq_none_iff.mp he)).symm.trans hs
    | some e =>
      cases (step_accepts ⟨hi, hr, he⟩).symm.trans hs
      exact ⟨h.cfg, h.inReset, h.resets, h.engine.trans (List.getElem?_set_ne hjk).symm,
        h.responses.trans (responsesOf_append_other hjk _ _).symm⟩

/-- R25: a frame on port `k` finds the same engine in both states, and answers and leaves the same. -/
theorem step_own {f : Frame} {rest rest' : List HostAction} (h : AgreeOn k s s')
    (hi : s.inputs = .present k f :: rest) (hi' : s'.inputs = .present k f :: rest') (hs : step s = .next t)
    (hs' : step s' = .next t') : AgreeOn k t t' := by
  cases hr : s.inReset with
  | true =>
    cases (step_inReset hi hr).symm.trans hs
    cases (step_inReset hi' (h.inReset.trans hr)).symm.trans hs'
    exact h.expect rest rest'
  | false =>
    cases he : s.engines[k]? with
    | none => cases (step_noSuchPort hi hr (List.getElem?_eq_none_iff.mp he)).symm.trans hs
    | some e =>
      have he' : s'.engines[k]? = some e := h.engine.trans he
      have hk := (List.getElem?_eq_some_iff.mp he).1
      have hk' := (List.getElem?_eq_some_iff.mp he').1
      cases (step_accepts ⟨hi, hr, he⟩).symm.trans hs
      cases (step_accepts ⟨hi', h.inReset.trans hr, he'⟩).symm.trans hs'
      refine ⟨h.cfg, h.inReset, h.resets, ?_, ?_⟩
      · simp [hk, hk', h.cfg]
      · simp only [State.answered_outputs, State.accepted_outputs, State.accepted_port, responsesOf_append_own, h.cfg,
          h.responses]

/-- R108: a release of reset in both states. `KM` and `KR` are drawn by the number of the reset and of the engine
(log 5). -/
theorem releaseReset (h : AgreeOn k s s') : AgreeOn k s.releaseReset s'.releaseReset := by
  cases hr : s.inReset with
  | true =>
    rw [s.releaseReset_of_asserted hr, s'.releaseReset_of_asserted (h.inReset.trans hr)]
    refine ⟨h.cfg, rfl, congrArg (· + 1) h.resets, ?_, h.responses⟩
    simp only [resetEngines_getElem?, h.engine, h.resets]
  | false =>
    rwa [s.releaseReset_of_released hr, s'.releaseReset_of_released (h.inReset.trans hr)]

/-- A step of both states on one action that concerns engine `k`. -/
theorem step_both {a : HostAction} {rest rest' : List HostAction} (h : AgreeOn k s s') (hc : Concerns k a)
    (hi : s.inputs = a :: rest) (hi' : s'.inputs = a :: rest') (hs : step s = .next t) (hs' : step s' = .next t') :
    AgreeOn k t t' := by
  cases a with
  | present j f =>
    obtain rfl := hc j f rfl
    exact h.step_own hi hi' hs hs'
  | assertReset l =>
    cases (step_assertReset hi).symm.trans hs
    cases (step_assertReset hi').symm.trans hs'
    exact ⟨h.cfg, rfl, h.resets, h.engine, h.responses⟩
  | releaseReset =>
    cases (step_releaseReset hi).symm.trans hs
    cases (step_releaseReset hi').symm.trans hs'
    exact (h.expect rest rest').releaseReset

end AgreeOn

/-- A step takes the first of the coming actions. -/
theorem step_inputs_cons {s t : State} {a : HostAction} {as : List HostAction} (hi : s.inputs = a :: as)
    (h : step s = .next t) : t.inputs = as := by
  rw [step_inputs h, hi, List.tail_cons]

/-- R38: two states that agree on engine `k` still do after the run of the coming actions of the one, and of those of
them that concern engine `k` in the other. -/
theorem run_agreeOn {k : Nat} {as : List HostAction} {s s' t t' : State} (h : AgreeOn k s s') (hi : s.inputs = as)
    (hi' : s'.inputs = actionsOf k as) (hs : Host.Core.run Sys2Proof.core as.length s = .next t)
    (hs' : Host.Core.run Sys2Proof.core (actionsOf k as).length s' = .next t') : AgreeOn k t t' := by
  induction as generalizing s s' with
  | nil =>
    cases hs
    cases hs'
    exact h
  | cons a as ih =>
    obtain ⟨u, hu, hrun⟩ := run_succ_next hs
    by_cases hc : Concerns k a
    · rw [actionsOf_cons_of_concerns hc] at hi' hs'
      obtain ⟨u', hu', hrun'⟩ := run_succ_next hs'
      exact ih (h.step_both hc hi hi' hu hu') (step_inputs_cons hi hu) (step_inputs_cons hi' hu') hrun hrun'
    · obtain ⟨j, f, rfl, hjk⟩ : ∃ j f, a = .present j f ∧ j ≠ k := by simpa [Concerns] using hc
      rw [actionsOf_cons_other hjk] at hi' hs'
      exact ih (h.step_other hjk hi hu) (step_inputs_cons hi hu) hi' hrun hs'

/-- Settles O58: both runs start from states that agree on engine `k`. -/
theorem enginesAreIndependent : Obligations.EnginesAreIndependent := by
  intro s t u k hs hs'
  have h : AgreeOn k t u :=
    run_agreeOn (s := s) (s' := { s with inputs := actionsOf k s.inputs }) ⟨rfl, rfl, rfl, rfl, rfl⟩ rfl rfl hs hs'
  exact ⟨h.engine, h.responses⟩

end Sys2Proof.Machine
end
